-- ==== Sys2Proof/Word.lean ====
section
/-! DEFINITION. The byte and the byte sequence (spec/00_scope.md R9, R10). The block has no wider word: every number
it computes is a mathematical integer (R11). -/

namespace Sys2Proof

/-- A byte, 8 bits, an unsigned integer 0 to 255 (R9). -/
abbrev Byte := BitVec 8

/-- A byte sequence; its head is the byte that came first (R10). -/
abbrev Bytes := List Byte

end Sys2Proof
end

