-- ==== Sys2Proof/Config.lean ====
section
/-! DEFINITION. The parameters: those the document fixes (spec/00_scope.md R6), those it leaves open (R7), and the free
values of the environment (spec/91_not_in_source.md N5, N12, N13, N16). -/

namespace Sys2Proof

/-- Length of the header in bytes (R6). -/
abbrev hdrLen : Nat := 2
/-- Width of command_code (R6). -/
abbrev cmdBits : Nat := 5
/-- Width of sequence (R6). -/
abbrev seqBits : Nat := 3
/-- Width of declared_length (R6). -/
abbrev lenBits : Nat := 5
/-- Least legal declared_length (R6). -/
abbrev lenMin : Nat := 2
/-- Greatest declared_length (R6). -/
abbrev lenMax : Nat := 31
/-- Greatest payload of one frame in bytes (R6). -/
abbrev payMax : Nat := 29

/-- HEXFMT (R7, R165): the letter case of the digits and the strings that stand before, between and after the bytes.
DESIGN CHOICE (log 4): the spec gives the default and not the type of the parameter. Safe: more spellings than one. -/
structure HexFmt where
  upper   : Bool
  before  : Bytes
  between : Bytes
  after   : Bytes
deriving DecidableEq, Repr

/-- The parameters the document leaves open (R7). They are constants of a run (log 3). `none` is "unbounded". -/
structure Config where
  bufMax   : Option Nat
  cntWidth : Option Nat
  ws       : Bytes
  hexFmt   : HexFmt
deriving DecidableEq, Repr

/-- The default HEXFMT of R165 (92 D10): lowercase digits, nothing before, between or after. -/
def HexFmt.standard : HexFmt := ⟨false, [], [], []⟩

/-- The defaults of R7 (92 D9 to D12). -/
def Config.standard : Config := ⟨none, none, [0x09, 0x0A, 0x0B, 0x0C, 0x0D, 0x20], HexFmt.standard⟩

/-- FREE VALUE (log 15, N12): whether a reader keeps the one header byte that arrived before its bounded wait elapsed,
at its n-th read. -/
opaque Config.loneByteKept : Nat → Bool

/-- FREE VALUE (log 16, N5): how many bytes, the two header bytes first, are gone from the link after a reader met
declared_length 0 or 1, at its n-th read. -/
opaque Config.shortHeaderDrops : Nat → Nat

/-- An outbound message, by its text before the line end (R82). An ASCII character has 7 bits, so that the type holds plain
ASCII text and nothing else. -/
structure Command where
  text : List (BitVec 7)
deriving DecidableEq, Repr, Inhabited

/-- FREE VALUE (log 17, N16): the command that starts a blank-frame run. -/
opaque Config.startCommand : Command

/-- FREE VALUE (log 17, N16): the command that ends a blank-frame run. -/
opaque Config.stopCommand : Command

/-- FREE VALUE (log 17, N13): the separator the text channel puts after each line. -/
opaque Config.textSeparator : Bytes

/-- FREE VALUE (log 25): how many of the bytes that wait on the link form the next available line of text; 0 is no line. -/
opaque Config.lineTaken : Bytes → Nat

/-- FREE VALUE (log 25): how many bytes of that line, from its beginning, are its text (a line end may be left out). -/
opaque Config.lineKept : Bytes → Nat

/-- FREE VALUE (log 17, N13): what the text channel returns when the transport is not open. -/
opaque Config.textSentinel : Bytes

end Sys2Proof
end

