-- ==== Sys2Proof/Syntax.lean ====
section
/-! DEFINITION. The Frame (spec/10_state.md R21 to R24) and the instructions: the four frame kinds of
spec/opcode_table.json (spec/30_encoding.md R76). -/

namespace Sys2Proof

/-- A Frame: the six fields of FR and the payload PAY (R21, R23). Fields are unsigned mathematical integers (R11), so
that a value out of range, which the frame port refuses (R217), can be written down; the ranges are the predicate `wf`
of WellFormed.lean. The field `endBit` is the document's `end`. -/
structure Frame where
  start          : Nat
  endBit         : Nat
  reserved       : Nat
  commandCode    : Nat
  sequence       : Nat
  declaredLength : Nat
  payload        : Bytes
deriving DecidableEq, Repr

/-- The instructions: one constructor per row of spec/opcode_table.json. The constructor is the pair (start, end); its
arguments are the other fields of the header and the payload. -/
inductive Instr where
  /-- FRAME.CONT, (start, end) = (0, 0) -/
  | frameCont (reserved commandCode sequence declaredLength : Nat) (payload : Bytes)
  /-- FRAME.LAST, (start, end) = (0, 1) -/
  | frameLast (reserved commandCode sequence declaredLength : Nat) (payload : Bytes)
  /-- FRAME.FIRST, (start, end) = (1, 0) -/
  | frameFirst (reserved commandCode sequence declaredLength : Nat) (payload : Bytes)
  /-- FRAME.SINGLE, (start, end) = (1, 1) -/
  | frameSingle (reserved commandCode sequence declaredLength : Nat) (payload : Bytes)
deriving DecidableEq, Repr

/-- The Frame an instruction stands for: its kind gives start and end (R76). -/
def Instr.toFrame : Instr → Frame
  | .frameCont r c q l p => ⟨0, 0, r, c, q, l, p⟩
  | .frameLast r c q l p => ⟨0, 1, r, c, q, l, p⟩
  | .frameFirst r c q l p => ⟨1, 0, r, c, q, l, p⟩
  | .frameSingle r c q l p => ⟨1, 1, r, c, q, l, p⟩

/-- The frame kind a Frame has by its two bits (R76). Outside {0, 1}, which `Frame.wf` excludes, any other number is
read as 1; no operation uses that. -/
def Frame.toInstr (f : Frame) : Instr :=
  if f.start = 0 then
    if f.endBit = 0 then .frameCont f.reserved f.commandCode f.sequence f.declaredLength f.payload
    else .frameLast f.reserved f.commandCode f.sequence f.declaredLength f.payload
  else
    if f.endBit = 0 then .frameFirst f.reserved f.commandCode f.sequence f.declaredLength f.payload
    else .frameSingle f.reserved f.commandCode f.sequence f.declaredLength f.payload

end Sys2Proof
end

