-- ==== Sys2Proof/WellFormed.lean ====
section
/-! DEFINITION. WF, the Frame invariant (spec/10_state.md R24), check by check, and the two kinds of well-formed frame:
payload-complete and short. -/

namespace Sys2Proof

/-- R24: start is 0 or 1. -/
def Frame.startOk (f : Frame) : Bool := decide (f.start ≤ 1)
/-- R24: end is 0 or 1. -/
def Frame.endOk (f : Frame) : Bool := decide (f.endBit ≤ 1)
/-- R24: reserved is 0 or 1. -/
def Frame.reservedOk (f : Frame) : Bool := decide (f.reserved ≤ 1)
/-- R24: command_code is 0 to 31. -/
def Frame.commandOk (f : Frame) : Bool := decide (f.commandCode < 2 ^ cmdBits)
/-- R24: sequence is 0 to 7. -/
def Frame.sequenceOk (f : Frame) : Bool := decide (f.sequence < 2 ^ seqBits)
/-- R24: declared_length is at least 2. -/
def Frame.lengthMinOk (f : Frame) : Bool := decide (lenMin ≤ f.declaredLength)
/-- R24: declared_length is at most 31. -/
def Frame.lengthMaxOk (f : Frame) : Bool := decide (f.declaredLength ≤ lenMax)
/-- R24: the payload has at most declared_length − 2 bytes, as integers (R11). -/
def Frame.payloadOk (f : Frame) : Bool := decide ((f.payload.length : Int) ≤ (f.declaredLength : Int) - 2)

/-- WF(f) of R24. -/
def Frame.wf (f : Frame) : Bool :=
  f.startOk && f.endOk && f.reservedOk && f.commandOk && f.sequenceOk && f.lengthMinOk && f.lengthMaxOk && f.payloadOk

/-- A frame is payload-complete when its payload has exactly declared_length − 2 bytes (R24). -/
def Frame.payloadComplete (f : Frame) : Bool := decide ((f.payload.length : Int) = (f.declaredLength : Int) - 2)

/-- A frame is short when its payload has fewer than declared_length − 2 bytes (R24). -/
def Frame.short (f : Frame) : Bool := decide ((f.payload.length : Int) < (f.declaredLength : Int) - 2)

/-- An instruction is well formed when the Frame it stands for is. -/
def Instr.wf (i : Instr) : Bool := i.toFrame.wf

end Sys2Proof
end

