-- ==== Sys2Proof/Decode.lean ====
section
/-! DEFINITION. The header decoder DECODE (spec/40_decode.md), total on any byte sequence, and after it the encoder that
R75 writes out for building test records (the block itself has no encoder, R115). -/

namespace Sys2Proof

/-- The three errors of DECODE with the numbers each carries (R210, R218, R219). -/
inductive DecodeError where
  /-- fewer than 2 bytes were supplied; carries how many (R101, R211) -/
  | headerTooShort (n : Nat)
  /-- declared_length is 0 or 1; carries it (R108, R213; the spec's own decision D5) -/
  | lengthFieldInvalid (len : Nat)
  /-- fewer than declared_length bytes were supplied; carries both (R109, R212) -/
  | lengthMismatch (n len : Nat)
deriving DecidableEq, Repr

/-- `b[hi:lo]` of R9: the unsigned integer made of bits hi down to lo. -/
def bits (b : Byte) (hi lo : Nat) : Nat := b.toNat / 2 ^ lo % 2 ^ (hi - lo + 1)

/-- `MemRead(addr, n)` of R12: n bytes of the record from offset addr. -/
def memRead (raw : Bytes) (addr n : Nat) : Bytes := (raw.drop addr).take n

/-- Byte `a` of a record that has it (R55: DECODE reads no byte outside the record). -/
def recByte (raw : Bytes) (a : Nat) : Byte := raw.getD a 0

/-- GET.START (R102). -/
def getStart (b0 : Byte) : Nat := bits b0 7 7
/-- GET.END (R103). -/
def getEnd (b0 : Byte) : Nat := bits b0 6 6
/-- GET.RESERVED (R104). -/
def getReserved (b0 : Byte) : Nat := bits b0 5 5
/-- GET.CMD (R105). -/
def getCmd (b0 : Byte) : Nat := bits b0 4 0
/-- GET.SEQ (R106). -/
def getSeq (b1 : Byte) : Nat := bits b1 7 5
/-- GET.LEN (R107). -/
def getLen (b1 : Byte) : Nat := bits b1 4 0

/-- GET.PAYLOAD (R110): offsets 2 to L − 1; what lies at L and above is not part of the frame (R111). -/
def getPayload (raw : Bytes) (len : Nat) : Bytes := memRead raw hdrLen (len - hdrLen)

/-- DECODE (R100), with the checks in the order of R116. -/
def decodeFrame (raw : Bytes) : Except DecodeError Frame :=
  if raw.length < hdrLen then .error (.headerTooShort raw.length)
  else
    let b0 := recByte raw 0
    let b1 := recByte raw 1
    let len := getLen b1
    if len < lenMin then .error (.lengthFieldInvalid len)
    else if raw.length < len then .error (.lengthMismatch raw.length len)
    else .ok ⟨getStart b0, getEnd b0, getReserved b0, getCmd b0, getSeq b1, len, getPayload raw len⟩

/-- The instruction a record holds: DECODE, then the frame-kind map of R76. -/
def decode (raw : Bytes) : Except DecodeError Instr :=
  match decodeFrame raw with
  | .ok f => .ok f.toInstr
  | .error e => .error e

/-- Header byte0 by the inverse of R75. -/
def headerByte0 (f : Frame) : Byte := BitVec.ofNat 8 (128 * f.start + 64 * f.endBit + 32 * f.reserved + f.commandCode)

/-- Header byte1 by the inverse of R75. -/
def headerByte1 (f : Frame) : Byte := BitVec.ofNat 8 (32 * f.sequence + f.declaredLength)

/-- The record of an instruction: the two header bytes and the payload (R70, R75). A test tool, no operation of the
block (R2, R115). -/
def encode (i : Instr) : Bytes := headerByte0 i.toFrame :: headerByte1 i.toFrame :: i.toFrame.payload

/-- The header word W = 256·byte0 + byte1 of R76, a notation of the opcode table. -/
def headerWord (raw : Bytes) : Nat := 256 * (recByte raw 0).toNat + (recByte raw 1).toNat

/-- Payload byte k of an instruction whose bits above bit 15 count on from the header word (bits of `w` at or above
`nbits` are 0). -/
def tableByte (nbits w k : Nat) : Byte := BitVec.ofNat 8 (w % 2 ^ nbits / 2 ^ (16 + 8 * k))

/-- The record an opcode-table word lays out: byte0 is bits 15 to 8 of W, byte1 bits 7 to 0 (R76), and then the payload
bytes up to declared_length. -/
def tableRecord (nbits w : Nat) : Bytes :=
  let b0 : Byte := BitVec.ofNat 8 (w % 2 ^ nbits / 256)
  let b1 : Byte := BitVec.ofNat 8 (w % 2 ^ nbits)
  b0 :: b1 :: ((List.range payMax).take (getLen b1 - hdrLen)).map (tableByte nbits w)

/-- The instruction the decoder reads from an opcode-table word. A word whose declared_length is 0 or 1 gives none:
DECODE raises LengthFieldInvalid on it (R108; the table's own "legal" entry for that field). -/
def decodeTableWord (nbits w : Nat) : Option Instr :=
  match decode (tableRecord nbits w) with
  | .ok i => some i
  | .error _ => none

end Sys2Proof
end

