-- ==== Sys2Proof/Machine/State.lean ====
section
/-! DEFINITION. What the machine holds (spec/10_state.md R20 and its table), the results of an operation, and the reasons
a step can stop. -/

namespace Sys2Proof.Machine

/-- DecodedMessage, the form of MSG (R30): the trimmed text, or the hex rendering as ASCII bytes (92 D22). -/
inductive Message where
  | text (t : Bytes)
  | raw (h : Bytes)
deriving DecidableEq, Repr

/-- The flag `kind` (R28). -/
inductive MsgKind where
  | text
  | raw
deriving DecidableEq, Repr

/-- The result of one operation (R142, D2): `Error(e)`, `None`, `Some(msg)`. -/
inductive Reply where
  | error (e : DecodeError)
  | nothing
  | message (m : Message)
deriving DecidableEq, Repr

/-- What one operation gives the caller: its result, and the Frame (FR and PAY) when a DECODE in it succeeded (R142).
FR, PAY and MSG hold a value nowhere else (R20, R22). -/
structure OpResult where
  frame : Option Frame
  reply : Reply
deriving DecidableEq, Repr

/-- The four input tokens (R82, R142 to R144, D2). -/
inductive Token where
  /-- Rec(raw): a raw record -/
  | record (raw : Bytes)
  /-- Frame(f): a Frame value handed straight to FEED -/
  | frame (f : Frame)
  /-- NoFrame: a reader returned "no frame" -/
  | noFrame
  /-- Reset: the creation of a fresh state -/
  | reset
deriving DecidableEq, Repr

/-- The state, every row of R20's table: BUF (R25), the one state of the block; CNT (R31), which the Blank-Frame Detector
alone writes and reads (R4, R227; log 1); pc and the trace it indexes (R32); the results produced so far with the outputs
FR, PAY and MSG of each operation, newest first (R271, R22, R30); and the parameters of R7, which no operation writes. -/
structure State where
  buf     : Bytes
  cnt     : Nat
  pc      : Nat
  trace   : List Token
  results : List OpResult
  cfg     : Config
deriving DecidableEq, Repr

/-- Why the machine stops with a fault. -/
inductive Fault where
  /-- Raised by an append or replace that would make BUF longer than a finite BUF_MAX (R56, D11); carries that length.
  Safe: the model stops where an implementation without the bound goes on. -/
  | bufferOverflow (len : Nat)
  /-- Raised by the Blank-Frame Detector alone, when it counts a blank message with CNT at the top of a finite CNT_WIDTH
  (R227, D12); carries CNT. No operation of the block raises it (D28). Safe: the model stops where an implementation might
  wrap. -/
  | cntOverflow (cnt : Nat)
  /-- Raised by `readFR` alone, when FR holds no value (R22, R34). No operation of the block reads it then. Safe. -/
  | frNoValue
  /-- Raised by `readPAY` alone, when PAY holds no value (R22, R34). No operation of the block reads it then. Safe. -/
  | payNoValue
deriving DecidableEq, Repr

/-- Why an input has no meaning. -/
inductive Refusal where
  /-- An instruction whose meaning is not written yet; raised by an arm of exec only. Safe. (No arm does now.) -/
  | notModelled (mnemonic : String)
  /-- A Frame value that breaks WF (R217, D7), raised by FEED at the frame port; carries the frame (R210). Safe: the
  model refuses more than the original software might. -/
  | frameMalformed (f : Frame)
deriving DecidableEq, Repr

/-- A fresh state (R34, R251, R252): BUF empty, CNT 0, pc 0, no result yet, under the parameters given. The trace is the
environment's and is empty until one is placed (log 2). -/
def State.fresh (cfg : Config) : State := ⟨[], 0, 0, [], [], cfg⟩

/-- The machine right after reset: a fresh state with the parameters at the defaults of R7 (log 3). -/
def State.reset : State := State.fresh Config.standard

end Sys2Proof.Machine
end

