-- ==== Sys2Proof/Machine/Operands.lean ====
section
/-! DEFINITION. The operand forms: the register file x[0] to x[5] of FR (spec/10_state.md R21), PAY (R23), and how the
caller reads FR, PAY, MSG and the error from the newest record (R22, R30, R200). -/

namespace Sys2Proof

/-- `x[i]` of R12 and R21: the six fields of FR by index. -/
def Frame.x (f : Frame) : Fin 6 → Nat
  | 0 => f.start
  | 1 => f.endBit
  | 2 => f.reserved
  | 3 => f.commandCode
  | 4 => f.sequence
  | 5 => f.declaredLength

namespace Machine

/-- FR and PAY as the operation that just ended left them: a value when its DECODE succeeded, else none (R22). -/
def State.fr? (s : State) : Option Frame := s.results.head?.bind OpResult.frame

/-- PAY likewise (R23). -/
def State.pay? (s : State) : Option Bytes := s.fr?.map Frame.payload

/-- MSG: the message of the operation that just ended, if it flushed (R30). -/
def Reply.message? : Reply → Option Message
  | .message m => some m
  | .error _ => none
  | .nothing => none

/-- The error of a result, if it is one (R219). -/
def Reply.error? : Reply → Option DecodeError
  | .error e => some e
  | .message _ => none
  | .nothing => none

def State.msg? (s : State) : Option Message := s.results.head?.bind fun r => r.reply.message?

/-- The error the operation that just ended reported (R219, R222). -/
def State.error? (s : State) : Option DecodeError := s.results.head?.bind fun r => r.reply.error?

/-- The caller's read of x[i]; with no value in FR it is a fault (R22, R225). -/
def readFR (s : State) (i : Fin 6) : Except Fault Nat :=
  match s.fr? with
  | some f => .ok (f.x i)
  | none => .error .frNoValue

/-- The caller's read of PAY; with no value in PAY it is a fault (R22, R225). -/
def readPAY (s : State) : Except Fault Bytes :=
  match s.pay? with
  | some p => .ok p
  | none => .error .payNoValue

/-- The messages a run has produced, oldest first (R150). -/
def State.messages (s : State) : List Message := s.results.reverse.filterMap fun r => r.reply.message?

end Machine

end Sys2Proof
end

