-- ==== Sys2Proof/Machine/Flags.lean ====
section
/-! DEFINITION. The flags of spec/10_state.md R28: the flush condition (R133), the text test (R161), and flush, kind and
blank as properties of a result. No flag is stored. -/

namespace Sys2Proof

/-- The flush condition of R133, an inclusive or on the frame's own fields. -/
def Frame.flushCond (f : Frame) : Bool := decide (f.endBit = 1) || f.short

namespace Machine

/-- IS_TEXT of R161 (92 D8): every byte at most 0x7F. -/
def isText (b : Bytes) : Bool := b.all fun x => decide (x.toNat ≤ 0x7F)

/-- The flag `kind` of a message (R28, R160). -/
def Message.kind : Message → MsgKind
  | .text _ => .text
  | .raw _ => .raw

/-- The flag `blank` of R164: Text whose trimmed string has length 0. -/
def Message.blank : Message → Bool
  | .text t => decide (t.length = 0)
  | .raw _ => false

/-- The flag `flush` of a result: 1 when a message was returned (R28). -/
def OpResult.flushFlag (r : OpResult) : Bool := r.reply.message?.isSome

/-- The flag `kind` of a result; no value when no message was returned (R28). -/
def OpResult.kindFlag (r : OpResult) : Option MsgKind := r.reply.message?.map Message.kind

/-- The flag `blank` of a result: 1 when it is a blank message (R28, R164). -/
def OpResult.blankFlag (r : OpResult) : Bool :=
  match r.reply.message? with
  | some m => m.blank
  | none => false

end Machine

end Sys2Proof
end

