-- ==== Sys2Proof/Machine/Classify.lean ====
section
/-! DEFINITION. CLASSIFY and its parts TRIM and HEX (spec/42_classify.md R160 to R168): pure functions of the drained
buffer and the parameters WS and HEXFMT. -/

namespace Sys2Proof.Machine

/-- Membership in WS. -/
def isWs (ws : Bytes) (x : Byte) : Bool := ws.contains x

/-- TRIM of R162: whitespace removed from both ends, kept inside. -/
def trim (ws : Bytes) (b : Bytes) : Bytes :=
  ((b.dropWhile (isWs ws)).reverse.dropWhile (isWs ws)).reverse

/-- One hexadecimal digit as an ASCII byte. -/
def hexDigit (upper : Bool) (n : Nat) : Byte :=
  if n < 10 then BitVec.ofNat 8 (0x30 + n)
  else if upper then BitVec.ofNat 8 (0x41 + (n - 10))
  else BitVec.ofNat 8 (0x61 + (n - 10))

/-- Two digits, the most significant first (R165). -/
def hexByte (upper : Bool) (x : Byte) : Bytes := [hexDigit upper (x.toNat / 16), hexDigit upper (x.toNat % 16)]

/-- The digits of the bytes in buffer order, with `sep` between two bytes. -/
def hexJoin (upper : Bool) (sep : Bytes) : Bytes → Bytes
  | [] => []
  | [x] => hexByte upper x
  | x :: y :: rest => hexByte upper x ++ sep ++ hexJoin upper sep (y :: rest)

/-- HEX of R165: the whole buffer, untrimmed. -/
def hex (fmt : HexFmt) (b : Bytes) : Bytes := fmt.before ++ hexJoin fmt.upper fmt.between b ++ fmt.after

/-- CLASSIFY of R160. -/
def classify (cfg : Config) (b : Bytes) : Message :=
  if isText b then .text (trim cfg.ws b) else .raw (hex cfg.hexFmt b)

end Sys2Proof.Machine
end

