-- ==== Sys2Proof/Machine/Ops.lean ====
section
/-! DEFINITION. The shared operations: the accesses to BUF (spec/20_memory.md R50, R56), the flush and the end of an
operation without a message (spec/41_reassembly.md R134, R135), taking an error (spec/60_exceptions.md R222), and FEED in
its general form (R130). None of them reads or writes CNT (R4). -/

namespace Sys2Proof.Machine

/-- The outcome type of every operation. -/
abbrev Out := Host.Outcome State Fault Refusal

/-- Go on with `k` from a next state; a fault or a refusal ends the operation. -/
def andThen (o : Out) (k : State → Out) : Out :=
  match o with
  | .next s => k s
  | .fault r => .fault r
  | .refused r => .refused r

/-- The update of BUF. -/
def State.setBuf (b : Bytes) (s : State) : State := { s with buf := b }

/-- The update of CNT, made by the Blank-Frame Detector alone (R31, R227). -/
def State.setCnt (n : Nat) (s : State) : State := { s with cnt := n }

/-- The end of an operation: its result is recorded and exactly one token is consumed (R32, R150). -/
def State.emit (r : Reply) (s : State) : State := { s with pc := s.pc + 1, results := ⟨none, r⟩ :: s.results }

/-- The newest result exposes the Frame its DECODE produced (R22, R142). -/
def exposeIn (f : Frame) : List OpResult → List OpResult
  | [] => []
  | r :: rest => { r with frame := some f } :: rest

/-- FR and PAY given to the caller beside the result of the operation that just ended (R142). -/
def State.expose (f : Frame) (s : State) : State := { s with results := exposeIn f s.results }

/-- `expose` on an outcome. -/
def exposing (f : Frame) (o : Out) : Out := andThen o fun s => .next (s.expose f)

/-- Whether a length is within BUF_MAX (R56). -/
def bufFits (cfg : Config) (n : Nat) : Bool :=
  match cfg.bufMax with
  | none => true
  | some m => decide (n ≤ m)

/-- The form BUF always has: its length is within BUF_MAX. A byte list is canonical as it stands (log 6). -/
def Memory.wf (cfg : Config) (buf : Bytes) : Bool := bufFits cfg buf.length

/-- Store a whole new content into BUF, or fault when it exceeds BUF_MAX (R56: no truncation, no wrap). -/
def storeBuf (b : Bytes) (s : State) : Out :=
  if bufFits s.cfg b.length then .next (s.setBuf b) else .fault (.bufferOverflow b.length)

/-- Replace-all (R131): what BUF held is discarded. -/
def replaceBuf (p : Bytes) (s : State) : Out := storeBuf p s

/-- Append at the end (R132), `MemWrite(len(BUF), len(p), p)`. -/
def appendBuf (p : Bytes) (s : State) : Out := storeBuf (s.buf ++ p) s

/-- Clear BUF (R134, R144). -/
def clearBuf (s : State) : State := s.setBuf []

/-- The flush action (R134): drain BUF, clear it, classify what was drained, return the message. -/
def flush (s : State) : Out := .next ((clearBuf s).emit (.message (classify s.cfg s.buf)))

/-- The end of an operation that returns None (R135). -/
def noMessage (s : State) : Out := .next (s.emit .nothing)

/-- TAKING AN ERROR (R222): the operation ends with `Error(e)`; nothing is saved, BUF and CNT are as before, and
the next token is next. There is no return from it (R224: no return instruction, no latch, nothing to restore). -/
def takeError (e : DecodeError) (s : State) : Out := .next (s.emit (.error e))

/-- FEED's precondition at the frame port (R130, R217): a value that breaks WF is refused and changes nothing. -/
def ifWellFormed (f : Frame) (o : Out) : Out := if f.wf then o else .refused (.frameMalformed f)

/-- The update part of FEED (R131, R132). -/
def updateBuf (f : Frame) (s : State) : Out :=
  if f.start = 1 then replaceBuf f.payload s else appendBuf f.payload s

/-- FEED in its general form (R130): update, flush test, drain, in that order (R145). -/
def feed (f : Frame) (s : State) : Out :=
  ifWellFormed f (andThen (updateBuf f s) fun s' => if f.flushCond then flush s' else noMessage s')

end Sys2Proof.Machine
end

