-- ==== Sys2Proof/Machine/Frames.lean ====
section
/-! DEFINITION. The meanings of the four frame kinds, each from its own rule (spec/41_reassembly.md R136 to R139). Of a
frame's fields each reads the payload and declared_length, and no other (R141). -/

namespace Sys2Proof.Machine

/-- FRAME.CONT (R137): `BUF <- BUF ++ p`; flush only if short. -/
def execFrameCont (reserved commandCode sequence declaredLength : Nat) (payload : Bytes) (s : State) : Out :=
  let f : Frame := ⟨0, 0, reserved, commandCode, sequence, declaredLength, payload⟩
  ifWellFormed f (andThen (appendBuf payload s) fun s' => if f.short then flush s' else noMessage s')

/-- FRAME.LAST (R138): `b := BUF ++ p`; flush. The append goes through BUF, as FEED's order has it (R130, R145), so a
finite BUF_MAX counts it (log 8). -/
def execFrameLast (reserved commandCode sequence declaredLength : Nat) (payload : Bytes) (s : State) : Out :=
  let f : Frame := ⟨0, 1, reserved, commandCode, sequence, declaredLength, payload⟩
  ifWellFormed f (andThen (appendBuf payload s) flush)

/-- FRAME.FIRST (R136): `BUF <- p`; flush only if short. -/
def execFrameFirst (reserved commandCode sequence declaredLength : Nat) (payload : Bytes) (s : State) : Out :=
  let f : Frame := ⟨1, 0, reserved, commandCode, sequence, declaredLength, payload⟩
  ifWellFormed f (andThen (replaceBuf payload s) fun s' => if f.short then flush s' else noMessage s')

/-- FRAME.SINGLE (R139): `BUF <- p`; flush. -/
def execFrameSingle (reserved commandCode sequence declaredLength : Nat) (payload : Bytes) (s : State) : Out :=
  let f : Frame := ⟨1, 1, reserved, commandCode, sequence, declaredLength, payload⟩
  ifWellFormed f (andThen (replaceBuf payload s) flush)

end Sys2Proof.Machine
end

