-- ==== Sys2Proof/Machine/Dispatch.lean ====
section
/-! DEFINITION. One arm per instruction, each one call of its meaning. -/

namespace Sys2Proof.Machine

def exec (i : Instr) (s : State) : Host.Outcome State Fault Refusal :=
  match i with
  | .frameCont r c q l p => Sys2Proof.Machine.execFrameCont r c q l p s
  | .frameLast r c q l p => Sys2Proof.Machine.execFrameLast r c q l p s
  | .frameFirst r c q l p => Sys2Proof.Machine.execFrameFirst r c q l p s
  | .frameSingle r c q l p => Sys2Proof.Machine.execFrameSingle r c q l p s

end Sys2Proof.Machine
end

