-- ==== Sys2Proof/Machine/Tokens.lean ====
section
/-! DEFINITION. The operations of the four input tokens (spec/41_reassembly.md R130, R142 to R144), and how the next token
is found and placed (spec/10_state.md R32). -/

namespace Sys2Proof.Machine

/-- RECORD (R142): DECODE; on an error take it (FEED is not called); else run the frame kind, and expose the Frame. -/
def opRecord (raw : Bytes) (s : State) : Out :=
  match decode raw with
  | .error e => takeError e s
  | .ok i => exposing i.toFrame (exec i s)

/-- The frame port (R130): a well-formed Frame runs as the frame kind its two bits select; any other is refused. -/
def opFrame (f : Frame) (s : State) : Out := ifWellFormed f (exec f.toInstr s)

/-- NOFRAME (R143): no effect, no output. -/
def opNoFrame (s : State) : Out := noMessage s

/-- RESET (R144): `BUF <- empty`; what BUF held is discarded without a message. -/
def opReset (s : State) : Out := noMessage (clearBuf s)

/-- One operation per token. -/
def runToken (t : Token) (s : State) : Out :=
  match t with
  | .record raw => opRecord raw s
  | .frame f => opFrame f s
  | .noFrame => opNoFrame s
  | .reset => opReset s

/-- The token the next step takes: the one at index pc of the trace (R32). -/
def State.token? (s : State) : Option Token := s.trace[s.pc]?

/-- The trace with `t` at index `n`; indexes below `n` that the trace lacks hold NoFrame. -/
def placeAt : Nat → Token → List Token → List Token
  | 0, t, tr => t :: tr.tail
  | n + 1, t, [] => .noFrame :: placeAt n t []
  | n + 1, t, a :: tr => a :: placeAt n t tr

/-- The state with `t` where the next step takes its token. -/
def State.withToken (t : Token) (s : State) : State := { s with trace := placeAt s.pc t s.trace }

/-- One step: the operation of the token at pc. When the trace is used up (R271) no operation takes place and the state
stays as it is: the block waits for the environment and never stops by itself (log 2). -/
def stepToken (s : State) : Out :=
  match s.token? with
  | some t => runToken t s
  | none => .next s

end Sys2Proof.Machine
end

