-- ==== Sys2Proof/Machine/Step.lean ====
section
/-! DEFINITION. The step of the machine, and the placing of an opcode-table word where the next step takes it. -/

namespace Sys2Proof.Machine

/-- One step: one operation of the block (R32, R54). -/
def step (s : State) : Host.Outcome State Fault Refusal := stepToken s

/-- `s` with the record of an opcode-table word as the token at pc. -/
def State.withFetchWord (s : State) (nbits w : Nat) : State := s.withToken (.record (tableRecord nbits w))

end Sys2Proof.Machine
end

