-- ==== Sys2Proof/Machine/Environment.lean ====
section
/-! DEFINITION. The environment that drives the block (spec/43_environment.md): the Transport, the two Frame Readers, the
Command Channel, the Text Command Channel, the Blank-Frame Detector with its count, the streaming loop, and several
channels side by side. None of it is part of the block's own step (R4, R180); every input reaches the block as a token. -/

namespace Sys2Proof.Machine

/-! ## The Transport -/

/-- The Transport (R181). `queue` is its receive queue (R33 a); `arrivals` lists what arrives up to the end of each coming
read or poll, an unconstrained script (log 14); `reads` counts those and indexes the free values (logs 15, 16). Every
access to it answers none when it is not open: TransportUnavailable (R181, R216). -/
structure Transport where
  isOpen   : Bool
  queue    : Bytes
  arrivals : List Bytes
  written  : List Bytes
  reads    : Nat
deriving DecidableEq, Repr

/-- Open the Transport (R181). The argument is the outside world's answer: none is a connect that failed (R216); else what
the link holds then and what arrives later. What the queue holds when a channel starts, and whether bytes of an earlier
connection are among it, the spec leaves open (R34, N15): any bytes (DESIGN CHOICE, log 24). -/
def Transport.connect (outside : Option (Bytes × List Bytes)) (t : Transport) : Option Transport :=
  match outside with
  | none => none
  | some (queue, arrivals) => some { t with isOpen := true, queue := queue, arrivals := arrivals }

/-- Close the Transport (R181). The bytes that wait cannot be read any more; connect says what waits after a reopening
(DESIGN CHOICE, log 24). -/
def Transport.close (t : Transport) : Transport := { t with isOpen := false }

/-- Write bytes (R181). -/
def Transport.write (b : Bytes) (t : Transport) : Option Transport :=
  if t.isOpen then some { t with written := t.written ++ [b] } else none

/-- The line end of the protocol, CR-LF (R82). -/
def lineEnd : Bytes := [0x0D, 0x0A]

/-- The bytes of an outbound message: plain ASCII text, CR-LF terminated, no framing (R82). -/
def outboundBytes (cmd : Command) : Bytes := cmd.text.map (·.setWidth 8) ++ lineEnd

/-- Write an outbound message, whole and without framing; it never passes through the block (R82). Every channel writes
through this one operation. -/
def Transport.writeCommand (cmd : Command) (t : Transport) : Option Transport := t.write (outboundBytes cmd)

/-- Report the available-byte count (R181). -/
def Transport.available (t : Transport) : Option Nat := if t.isOpen then some t.queue.length else none

/-- The bytes that arrive up to the end of one bounded wait join the queue. -/
def Transport.arrive (t : Transport) : Transport :=
  { t with queue := t.queue ++ t.arrivals.headD [], arrivals := t.arrivals.tail, reads := t.reads + 1 }

/-- Up to n bytes leave the queue after one bounded wait, the first that were sent. -/
def Transport.takeUpTo (n : Nat) (t : Transport) : Bytes × Transport :=
  (t.arrive.queue.take n, { t.arrive with queue := t.arrive.queue.drop n })

/-- Read up to n bytes with a bounded wait (R181): between 0 and n bytes, in the order sent; 0 means that the wait elapsed
with nothing. -/
def Transport.read (n : Nat) (t : Transport) : Option (Bytes × Transport) :=
  if t.isOpen then some (t.takeUpTo n) else none

/-- Bytes taken and put back at the head of the queue (one outcome of the free value of log 15). -/
def Transport.unread (b : Bytes) (t : Transport) : Transport := { t with queue := b ++ t.queue }

/-! ## The two Frame Readers -/

/-- What a reader does when the header is incomplete (R182, R186): "no frame"; whether a byte that did arrive is kept is
a free value (N12, log 15). -/
def dropHeader (h : Bytes) (t : Transport) : Token × Transport :=
  if Config.loneByteKept t.reads then (.noFrame, t.unread h) else (.noFrame, t)

/-- What a reader does when the header declares fewer than 2 bytes: by R188 it hands over no record, so "no frame"; how
much of the link is gone afterwards is a free value (N5, log 16). -/
def shortHeader (h : Bytes) (t : Transport) : Token × Transport :=
  (.noFrame, { t with queue := (h ++ t.queue).drop (Config.shortHeaderDrops t.reads) })

/-- Step 3 of the retrying reader (R184): bounded reads until `need` bytes are there, or none when a read returns zero
bytes (what was gathered is abandoned). Each read returns at least one byte, so `need` reads are enough. -/
def gather : Nat → Nat → Bytes → Transport → Option (Option Bytes × Transport)
  | _, 0, acc, t => some (some acc, t)
  | 0, _ + 1, _, t => some (none, t)
  | fuel + 1, need + 1, acc, t =>
    match t.read (need + 1) with
    | none => none
    | some ([], t') => some (none, t')
    | some (x :: xs, t') => gather fuel (need + 1 - (x :: xs).length) (acc ++ (x :: xs)) t'

/-- The payload by the retrying strategy (R184). -/
def retryingPayload (n : Nat) (t : Transport) : Option (Option Bytes × Transport) := gather n n [] t

/-- The payload by the best-effort strategy (R187): read once; a partial one is dropped, not buffered. -/
def bestEffortPayload (n : Nat) (t : Transport) : Option (Option Bytes × Transport) :=
  match t.read n with
  | none => none
  | some (p, t') => some (if p.length < n then none else some p, t')

/-- One call of a Frame Reader, one token (R182, R183, R185, R186): the two header bytes, then the payload by the
strategy given, the two strategies behind one interface (R199). None when the Transport is not open (R216). -/
def readRecord (payload : Nat → Transport → Option (Option Bytes × Transport)) (t : Transport) :
    Option (Token × Transport) :=
  match t.read hdrLen with
  | none => none
  | some (h, t1) =>
    if h.length < hdrLen then some (dropHeader h t1)
    else if getLen (recByte h 1) < lenMin then some (shortHeader h t1)
    else
      match payload (getLen (recByte h 1) - hdrLen) t1 with
      | none => none
      | some (some p, t2) => some (.record (h ++ p), t2)
      | some (none, t2) => some (.noFrame, t2)

/-- The retrying Frame Reader (R182 to R185), used by the Command Channel. -/
def retryingRead (t : Transport) : Option (Token × Transport) := readRecord retryingPayload t

/-- The best-effort Frame Reader (R186, R187), used by the streaming and blank-frame loops. -/
def bestEffortRead (t : Transport) : Option (Token × Transport) := readRecord bestEffortPayload t

/-! ## A channel and one turn of its loop -/

/-- A logical channel: the state it owns and the Transport handle it holds (R26, R226). -/
structure Channel where
  state     : State
  transport : Transport
deriving DecidableEq, Repr

/-- A channel as it starts, or starts again on a reopened connection: a fresh state, nothing survives (R250, R252, R253). -/
def Channel.create (cfg : Config) (t : Transport) : Channel := ⟨State.fresh cfg, t⟩

/-- Why a channel's loop ends before its own end. -/
inductive Stop where
  /-- the Transport is not open, surfaced to the caller (R216, R253) -/
  | transportUnavailable
  /-- a fault (finite BUF_MAX, or finite CNT_WIDTH in a detector run) -/
  | faulted (r : Fault)
  /-- the block refused (never a reader's token) -/
  | refused (r : Refusal)
deriving DecidableEq, Repr

/-- The host presents one token (R200): it is where the next step takes it, and the step is made. -/
def present (t : Token) (s : State) : Out := step (s.withToken t)

/-- The channel with the state an operation left, or why it stops. -/
def onChannel (t : Transport) (o : Out) : Except Stop Channel :=
  match o with
  | .next s => .ok ⟨s, t⟩
  | .fault r => .error (.faulted r)
  | .refused r => .error (.refused r)

/-- One turn of a channel's loop: one call of its reader, one operation of the block. -/
def turn (reader : Transport → Option (Token × Transport)) (c : Channel) : Except Stop Channel :=
  match reader c.transport with
  | none => .error .transportUnavailable
  | some (k, t) => onChannel t (present k c.state)

/-! ## The Command Channel -/

/-- How a call of `send` ends (R189, R216). -/
inductive SendOutcome where
  /-- the first message that was flushed -/
  | message (m : Message) (c : Channel)
  /-- no message in the turns given: the loop has no deadline of its own (R191) -/
  | waiting (c : Channel)
  /-- a turn could not be made; the channel as it was before that turn -/
  | stopped (why : Stop) (c : Channel)
deriving DecidableEq, Repr

/-- The Command Channel's loop (R189, R190): one retrying read and one operation a turn; errors and "no frame" go round
again; the first message, a blank one too (R164), ends the call. -/
def sendLoop : Nat → Channel → SendOutcome
  | 0, c => .waiting c
  | n + 1, c =>
    match turn retryingRead c with
    | .error why => .stopped why c
    | .ok c' =>
      match c'.state.msg? with
      | some m => .message m c'
      | none => sendLoop n c'

/-- `send(cmd)` (R189): write the command, already terminated with the line end (a Command always is, R82), then loop.
`turns` bounds the loop of the model, not of the software (R191, log 18). The state is taken as the channel holds it (N14, log 19). -/
def send (turns : Nat) (cmd : Command) (c : Channel) : SendOutcome :=
  match c.transport.writeCommand cmd with
  | none => .stopped .transportUnavailable c
  | some t => sendLoop turns ⟨c.state, t⟩

/-! ## The Text Command Channel -/

/-- A line decoded as text, invalid bytes ignored (R192; which bytes are invalid: log 20). -/
def textOfLine (l : Bytes) : Bytes := l.filter fun x => decide (x.toNat ≤ 0x7F)

/-- One poll for available input (R192): the next line, if one waits, leaves the link (log 25). -/
def Transport.pollLine (t : Transport) : Option (Option Bytes × Transport) :=
  let waiting := t.arrive.queue
  match t.read (Config.lineTaken waiting) with
  | none => none
  | some ([], t') => some (none, t')
  | some (l, t') => some (some (l.take (Config.lineKept waiting)), t')

/-- How a call of `send_text` ends (R192). -/
inductive TextOutcome where
  /-- the wait window elapsed, or the sentinel -/
  | text (out : Bytes) (t : Transport)
  /-- the clock samples given are used up before the window elapses -/
  | polling (out : Bytes) (t : Transport)
deriving DecidableEq, Repr

/-- The polling loop (R192): `clock` lists the elapsed time at the head of each turn (log 18); each available line is
decoded and appended with the separator after it. DESIGN CHOICE (log 18): R192 says only "for up to" and "once the wait
window elapses"; in the model the window is over when the elapsed time equals `wait`, so no poll is made then, and none at
all with `wait` 0. -/
def textLoop (wait : Nat) : List Nat → Bytes → Transport → TextOutcome
  | [], out, t => .polling out t
  | elapsed :: clock, out, t =>
    if wait ≤ elapsed then .text out t
    else
      match t.pollLine with
      | none => .text Config.textSentinel t
      | some (none, t') => textLoop wait clock out t'
      | some (some l, t') => textLoop wait clock (out ++ textOfLine l ++ Config.textSeparator) t'

/-- `send_text(cmd, wait)` (R192): write the command with its line end (R82; DEDUCED, log 17), then poll. The sentinel when the
Transport is not open. The block is not used: no state is read or written; the text comes from the same link as the records (R266). -/
def sendText (wait : Nat) (clock : List Nat) (cmd : Command) (t : Transport) : TextOutcome :=
  match t.writeCommand cmd with
  | none => .text Config.textSentinel t
  | some t' => textLoop wait clock [] t'

/-! ## The Blank-Frame Detector -/

/-- Whether a count is within CNT_WIDTH (R227). -/
def cntFits (cfg : Config) (n : Nat) : Bool :=
  match cfg.cntWidth with
  | none => true
  | some w => decide (n < 2 ^ w)

/-- Whether the operation that just ended returned a blank message (R28, R164). -/
def State.blank (s : State) : Bool :=
  match s.results.head? with
  | some r => r.blankFlag
  | none => false

/-- The detector looks at the result of the operation that just ended (R194, R227): CNT is one more when it is a blank
message, or a fault at the top of CNT_WIDTH; else unchanged. -/
def countBlank (s : State) : Out :=
  if s.blank then
    if cntFits s.cfg (s.cnt + 1) then .next (s.setCnt (s.cnt + 1)) else .fault (.cntOverflow s.cnt)
  else .next s

/-- One operation of a detector run on a recorded trace: the block's, then the detector's count. -/
def detectorStep (s : State) : Out :=
  match s.token? with
  | none => .next s
  | some k => andThen (runToken k s) countBlank

/-- One turn of the detector's loop (R194): one best-effort read, one operation, the count. -/
def detectorTurn (c : Channel) : Except Stop Channel :=
  match turn bestEffortRead c with
  | .error why => .error why
  | .ok c' => onChannel c'.transport (countBlank c'.state)

/-- How the detector's loop ends. -/
inductive LoopOutcome where
  /-- the deadline was reached and the stop command written -/
  | ended (c : Channel)
  /-- the clock samples given are used up before the deadline -/
  | running (c : Channel)
  /-- a turn could not be made; the channel as it was before that turn -/
  | stopped (why : Stop) (c : Channel)
deriving DecidableEq, Repr

/-- The Blank-Frame Detector's loop (R194): `clock` lists the elapsed time computed at the head of each turn. At the
deadline the stop command is written; decode errors and "no frame" go round again (R195). -/
def detectorLoop (duration : Nat) : List Nat → Channel → LoopOutcome
  | [], c => .running c
  | elapsed :: clock, c =>
    if duration ≤ elapsed then
      match c.transport.writeCommand Config.stopCommand with
      | none => .stopped .transportUnavailable c
      | some t => .ended ⟨c.state, t⟩
    else
      match detectorTurn c with
      | .error why => .stopped why c
      | .ok c' => detectorLoop duration clock c'

/-- The start of a run (R193): write the start command, create an empty state (RESET) with CNT 0. Nothing of an earlier
run survives (R252, log 22). -/
def startRun (cfg : Config) (t : Transport) : Except Stop Channel :=
  match t.writeCommand Config.startCommand with
  | none => .error .transportUnavailable
  | some t' => onChannel t' (andThen (present .reset (State.fresh cfg)) fun s => .next (s.setCnt 0))

/-- How a blank-frame run ends (R196, R216). -/
inductive RunOutcome where
  /-- the final count, and the Transport handle given back; BUF and CNT are dropped with the state (R196, R252) -/
  | count (n : Nat) (t : Transport)
  /-- the clock samples given are used up before the deadline -/
  | running (c : Channel)
  /-- the run stopped early; no count, and the state is dropped -/
  | stopped (why : Stop) (t : Transport)
deriving DecidableEq, Repr

/-- `run(duration)` (R193 to R196). The run owns a state of its own, so it takes no state and gives none back. -/
def runDetector (cfg : Config) (duration : Nat) (clock : List Nat) (t : Transport) : RunOutcome :=
  match startRun cfg t with
  | .error why => .stopped why t
  | .ok c =>
    match detectorLoop duration clock c with
    | .ended c' => .count c'.state.cnt c'.transport
    | .running c' => .running c'
    | .stopped why c' => .stopped why c'.transport

/-- The companion operation that sends only the stop command (R196); none is TransportUnavailable (R216). -/
def stopOnly (t : Transport) : Option Transport := t.writeCommand Config.stopCommand

/-! ## The streaming loop -/

/-- Where a number of turns of the streaming loop leads. -/
inductive StreamOutcome where
  /-- the turns were made; the caller may break out here or go on -/
  | running (c : Channel)
  /-- a turn could not be made, because the Transport was closed or the block stopped; the channel as it was then -/
  | stopped (why : Stop) (c : Channel)
deriving DecidableEq, Repr

/-- Turns of the streaming loop (R198): it owns a state, uses the best-effort reader, and has no upper bound. It ends when
the Transport is closed, or when the caller breaks out. The messages stand in the results of the state. DESIGN CHOICE
(log 23): a turn writes nothing, and who writes the command that begins a stream is left to the caller (N17). -/
def streamTurns : Nat → Channel → StreamOutcome
  | 0, c => .running c
  | n + 1, c =>
    match turn bestEffortRead c with
    | .error why => .stopped why c
    | .ok c' => streamTurns n c'

/-! ## Several channels -/

/-- Several channels (R230): one instance of the block each, held as the outcome of its last operation. A step of channel k
is the step of its own state. An instance that faulted or was refused stays so, and the others go on: instances share
nothing (R230, D21; log 23). -/
def stepChannel (k : Nat) (cs : List Out) : List Out := cs.modify k fun o => andThen o step

end Sys2Proof.Machine
end

