-- ==== Sys2Proof/Safety.lean ====
section
/-! DEFINITION. What a safe run is, in the terms statements use: the invariant of the machine, the premises a run needs
(spec/70_reset_and_hazards.md R254), and the table machine of spec/41_reassembly.md R148, which the step is held against. -/

namespace Sys2Proof.Machine

/-- The numbers an error of DECODE may carry (R210 to R213). -/
def errorNumbersOk : DecodeError → Prop
  | .headerTooShort n => n < 2
  | .lengthFieldInvalid len => len < 2
  | .lengthMismatch n len => 2 ≤ n ∧ n < len ∧ len ≤ 31

/-- What every recorded result looks like: an exposed Frame is well formed and payload-complete (R113), a message is what
CLASSIFY makes of some buffer (R134), an error carries numbers that caused it and exposes no Frame (R100, R219). -/
structure ResultOk (cfg : Config) (r : OpResult) : Prop where
  frameOk   : ∀ f, r.frame = some f → f.wf = true ∧ f.payloadComplete = true
  messageOk : ∀ m, r.reply = .message m → ∃ b, m = classify cfg b
  errorOk   : ∀ e, r.reply = .error e → r.frame = none ∧ errorNumbersOk e

/-- How many of the results are blank messages (R227). -/
def blankCount (rs : List OpResult) : Nat := (rs.filter OpResult.blankFlag).length

/-- The invariant of a run: BUF within BUF_MAX (R56), pc within the trace (R32), one result per token consumed (R32, R150),
every result as above. -/
structure State.Inv (s : State) : Prop where
  bufOk     : Memory.wf s.cfg s.buf = true
  pcOk      : s.pc ≤ s.trace.length
  oneEach   : s.results.length = s.pc
  resultsOk : ∀ r ∈ s.results, ResultOk s.cfg r

/-- What a detector run adds: CNT is the number of blank messages produced in it, and within CNT_WIDTH (R227). -/
structure State.CountInv (s : State) : Prop where
  countsAll : s.cnt = blankCount s.results
  cntOk     : cntFits s.cfg s.cnt = true

/-- The run has used up its trace (R271). -/
def State.final (s : State) : Bool := decide (s.pc = s.trace.length)

/-- Both capacities unbounded, the defaults of R7. -/
def unboundedCfg (cfg : Config) : Bool := decide (cfg.bufMax = none) && decide (cfg.cntWidth = none)

/-- The launch premise "no refusal" (R254): every Frame the trace hands to the frame port is well formed. -/
def portFramesOk (tr : List Token) : Prop := ∀ f, Token.frame f ∈ tr → f.wf = true

/-- The row of R148's table for a frame: the new BUF and the result, by (start, flush). -/
def tableFrame (cfg : Config) (b : Bytes) (f : Frame) : Bytes × Reply :=
  let b' := if f.start = 1 then f.payload else b ++ f.payload
  if f.endBit = 1 ∨ (f.payload.length : Int) < (f.declaredLength : Int) - 2 then ([], .message (classify cfg b'))
  else (b', .nothing)

/-- R148's table: BUF and a token give the new BUF and the result. -/
def tableStep (cfg : Config) (b : Bytes) : Token → Bytes × Reply
  | .record raw =>
    match decodeFrame raw with
    | .ok f => tableFrame cfg b f
    | .error e => (b, .error e)
  | .frame f => tableFrame cfg b f
  | .noFrame => (b, .nothing)
  | .reset => ([], .nothing)

/-- The table machine over a list of tokens: the final BUF and the results, oldest first. -/
def tableRun (cfg : Config) : Bytes → List Token → Bytes × List Reply
  | b, [] => (b, [])
  | b, t :: ts =>
    let (b1, r) := tableStep cfg b t
    let (b2, rs) := tableRun cfg b1 ts
    (b2, r :: rs)

end Sys2Proof.Machine
end

