-- ==== Sys2Proof/Certificates/Slice0/Obligations.lean ====
section
/-! DEFINITION. The statements about the model, for the provers. Each docstring names the rule of spec/ it formalises. -/

open Sys2Proof Sys2Proof.Machine

/-! ## The header decoder -/

/-- R101: HeaderTooShort exactly when fewer than 2 bytes are supplied, carrying how many. -/
def Obligations.HeaderTooShortExactlyBelowTwoBytes : Prop :=
  ∀ raw : Bytes,
    (raw.length < 2 → decode raw = .error (.headerTooShort raw.length)) ∧
    (∀ n, decode raw = .error (.headerTooShort n) → raw.length < 2 ∧ n = raw.length)

/-- The spec's own decision D5 (log 7): LengthFieldInvalid exactly when the header is there and declared_length is 0 or
1, carrying it. -/
def Obligations.LengthFieldInvalidExactlyBelowTwo : Prop :=
  ∀ (raw : Bytes) (len : Nat),
    decode raw = .error (.lengthFieldInvalid len) ↔
      2 ≤ raw.length ∧ len = (recByte raw 1).toNat % 32 ∧ len < 2

/-- R109: LengthMismatch exactly when n ≥ 2, L ≥ 2 and n < L, carrying both. -/
def Obligations.LengthMismatchExactlyWhenRecordTooShort : Prop :=
  ∀ (raw : Bytes) (n len : Nat),
    decode raw = .error (.lengthMismatch n len) ↔
      n = raw.length ∧ len = (recByte raw 1).toNat % 32 ∧ 2 ≤ n ∧ 2 ≤ len ∧ n < len

/-- R102 to R107 and R110: a record that passes the three checks decodes, each of the six fields is the quotient and
remainder of its header byte that its rule gives, and the payload is offsets 2 to L − 1. -/
def Obligations.DecodeReadsEveryField : Prop :=
  ∀ raw : Bytes, 2 ≤ raw.length → 2 ≤ (recByte raw 1).toNat % 32 → (recByte raw 1).toNat % 32 ≤ raw.length →
    ∃ i, decode raw = .ok i ∧
      i.toFrame.start = (recByte raw 0).toNat / 128 % 2 ∧
      i.toFrame.endBit = (recByte raw 0).toNat / 64 % 2 ∧
      i.toFrame.reserved = (recByte raw 0).toNat / 32 % 2 ∧
      i.toFrame.commandCode = (recByte raw 0).toNat % 32 ∧
      i.toFrame.sequence = (recByte raw 1).toNat / 32 ∧
      i.toFrame.declaredLength = (recByte raw 1).toNat % 32 ∧
      i.toFrame.payload = (raw.drop 2).take ((recByte raw 1).toNat % 32 - 2)

/-- 40_decode.md section 6 (R113): what DECODE answers is well formed and payload-complete, so never short. -/
def Obligations.DecodedFramesAreWellFormedAndComplete : Prop :=
  ∀ (raw : Bytes) (i : Instr), decode raw = .ok i →
    i.wf = true ∧ i.toFrame.payload.length + 2 = i.toFrame.declaredLength ∧ i.toFrame.short = false

/-- 40_decode.md section 5 (R111, the spec's own decision D6, log 12): bytes at offsets L and above change nothing. -/
def Obligations.TrailingBytesAreIgnored : Prop :=
  ∀ (raw extra : Bytes) (i : Instr), decode raw = .ok i → decode (raw ++ extra) = .ok i

/-- 40_decode.md section 6 (R114): decoding the record of any well-formed payload-complete instruction, every field at any
value its width admits, gives it back. -/
def Obligations.DecodeEncodeRoundTrip : Prop :=
  ∀ i : Instr, i.wf = true → i.toFrame.payload.length + 2 = i.toFrame.declaredLength → decode (encode i) = .ok i

/-- 41_reassembly.md R140 with 90_conflicts.md C1: a short frame has no record form; the bytes it would have are rejected
by the length check. -/
def Obligations.ShortFramesHaveNoRecord : Prop :=
  ∀ i : Instr, i.wf = true → i.toFrame.payload.length + 2 < i.toFrame.declaredLength →
    decode (encode i) = .error (.lengthMismatch (i.toFrame.payload.length + 2) i.toFrame.declaredLength)

/-- 40_decode.md section 6 (R114): the fields and the payload determine the record: encoding what was decoded gives back
the first declared_length bytes. -/
def Obligations.EncodeDecodeGivesBackTheRecord : Prop :=
  ∀ (raw : Bytes) (i : Instr), decode raw = .ok i → encode i = raw.take i.toFrame.declaredLength

/-- 30_encoding.md section 3 (R76): bits 15 and 14 of the header word select the kind, the other fields stand at their
places, for every one of the 65536 words; one whose declared_length is 0 or 1 gives no instruction (D5, log 7). The payload is no
part of the word: that it is zeros up to declared_length is the model's own choice (DESIGN CHOICE, log 10). -/
def Obligations.EveryTableWordSelectsItsKind : Prop :=
  ∀ w : Nat, w < 65536 →
    decodeTableWord 16 w =
      if w % 32 < 2 then none
      else
        some <| match w / 16384 with
          | 0 => .frameCont (w / 8192 % 2) (w / 256 % 32) (w / 32 % 8) (w % 32) (List.replicate (w % 32 - 2) 0)
          | 1 => .frameLast (w / 8192 % 2) (w / 256 % 32) (w / 32 % 8) (w % 32) (List.replicate (w % 32 - 2) 0)
          | 2 => .frameFirst (w / 8192 % 2) (w / 256 % 32) (w / 32 % 8) (w % 32) (List.replicate (w % 32 - 2) 0)
          | _ => .frameSingle (w / 8192 % 2) (w / 256 % 32) (w / 32 % 8) (w % 32) (List.replicate (w % 32 - 2) 0)

/-- 95_test_vectors.md section 2.1: one record of each kind, written out from the bit layout of R71 and R72. -/
def Obligations.SpelledOutRecordsDecode : Prop :=
  decode [0x85#8, 0x04#8, 0x41#8, 0x42#8] = .ok (.frameFirst 0 5 0 4 [0x41#8, 0x42#8]) ∧
  decode [0x45#8, 0x23#8, 0x43#8] = .ok (.frameLast 0 5 1 3 [0x43#8]) ∧
  decode [0xC5#8, 0x04#8, 0x4F#8, 0x4B#8] = .ok (.frameSingle 0 5 0 4 [0x4F#8, 0x4B#8]) ∧
  decode [0x05#8, 0x23#8, 0x43#8] = .ok (.frameCont 0 5 1 3 [0x43#8]) ∧
  decode [0xA5#8, 0x02#8] = .ok (.frameFirst 1 5 0 2 []) ∧
  decode [0x1F#8, 0xE2#8] = .ok (.frameCont 0 31 7 2 [])

/-! ## The four frame kinds -/

/-- R136: FRAME.FIRST completes: BUF becomes the payload; a short one flushes the payload alone, any other returns None. -/
def Obligations.FirstReplacesAndFlushesOnlyIfShort : Prop :=
  ∀ (r c q l : Nat) (p : Bytes) (s : State),
    (Instr.frameFirst r c q l p).wf = true → bufFits s.cfg p.length = true →
    ∃ t, exec (.frameFirst r c q l p) s = .next t ∧
      if (p.length : Int) < (l : Int) - 2 then
        t.buf = [] ∧ t.results = ⟨none, .message (classify s.cfg p)⟩ :: s.results
      else t.buf = p ∧ t.results = ⟨none, .nothing⟩ :: s.results

/-- R137: FRAME.CONT completes: the payload is appended; a short one flushes BUF ++ p, any other returns None. -/
def Obligations.ContAppendsAndFlushesOnlyIfShort : Prop :=
  ∀ (r c q l : Nat) (p : Bytes) (s : State),
    (Instr.frameCont r c q l p).wf = true → bufFits s.cfg (s.buf ++ p).length = true →
    ∃ t, exec (.frameCont r c q l p) s = .next t ∧
      if (p.length : Int) < (l : Int) - 2 then
        t.buf = [] ∧ t.results = ⟨none, .message (classify s.cfg (s.buf ++ p))⟩ :: s.results
      else t.buf = s.buf ++ p ∧ t.results = ⟨none, .nothing⟩ :: s.results

/-- R138: FRAME.LAST completes: it flushes BUF ++ p, short or not, and leaves BUF empty. -/
def Obligations.LastAppendsAndFlushes : Prop :=
  ∀ (r c q l : Nat) (p : Bytes) (s : State),
    (Instr.frameLast r c q l p).wf = true → bufFits s.cfg (s.buf ++ p).length = true →
    ∃ t, exec (.frameLast r c q l p) s = .next t ∧
      t.buf = [] ∧ t.results = ⟨none, .message (classify s.cfg (s.buf ++ p))⟩ :: s.results

/-- 41_reassembly.md section 2 (R139, which the spec derives): FRAME.SINGLE completes: it flushes the payload alone, short
or not, whatever BUF held, and leaves BUF empty. -/
def Obligations.SingleFlushesItsPayloadAlone : Prop :=
  ∀ (r c q l : Nat) (p : Bytes) (s : State),
    (Instr.frameSingle r c q l p).wf = true → bufFits s.cfg p.length = true →
    ∃ t, exec (.frameSingle r c q l p) s = .next t ∧
      t.buf = [] ∧ t.results = ⟨none, .message (classify s.cfg p)⟩ :: s.results

/-- R133: the flag flush of the one result an operation adds is 1 exactly when end is 1 or the payload is shorter than
declared_length − 2, as integers. -/
def Obligations.FlushExactlyOnEndOrShort : Prop :=
  ∀ (i : Instr) (s t : State), exec i s = .next t →
    ∃ res, t.results = res :: s.results ∧
      (res.flushFlag = true ↔
        i.toFrame.endBit = 1 ∨ (i.toFrame.payload.length : Int) < (i.toFrame.declaredLength : Int) - 2)

/-- R134 and R145: a flush takes the whole of BUF as the update left it, the flushing frame's payload included, classifies
it, returns one message, and leaves BUF empty. -/
def Obligations.FlushDrainsBufferAfterUpdate : Prop :=
  ∀ (i : Instr) (s t : State), exec i s = .next t →
    (i.toFrame.endBit = 1 ∨ (i.toFrame.payload.length : Int) < (i.toFrame.declaredLength : Int) - 2) →
    t.buf = [] ∧
    t.results = ⟨none, .message (classify s.cfg
      (if i.toFrame.start = 1 then i.toFrame.payload else s.buf ++ i.toFrame.payload))⟩ :: s.results

/-- R135: with no flush the result is None, BUF keeps the value the update gave it, and MSG has no value. -/
def Obligations.NoFlushReturnsNothing : Prop :=
  ∀ (i : Instr) (s t : State), exec i s = .next t →
    ¬ (i.toFrame.endBit = 1 ∨ (i.toFrame.payload.length : Int) < (i.toFrame.declaredLength : Int) - 2) →
    t.buf = (if i.toFrame.start = 1 then i.toFrame.payload else s.buf ++ i.toFrame.payload) ∧
    t.results = ⟨none, .nothing⟩ :: s.results ∧ t.msg? = none

/-- R131: a start frame discards whatever BUF held without a trace of it: with any other content of BUF the same frame has
the same outcome. BUF becomes the payload, 0 to 29 bytes, and a flush drains just that; BufferOverflow comes only under a
BUF_MAX below 29. -/
def Obligations.StartFrameForgetsBuffer : Prop :=
  ∀ (i : Instr) (s : State) (b : Bytes), i.toFrame.start = 1 →
    exec i { s with buf := b } = exec i s ∧
    (∀ t, exec i s = .next t →
      i.toFrame.payload.length ≤ 29 ∧
      (i.toFrame.flushCond = false → t.buf = i.toFrame.payload) ∧
      (i.toFrame.flushCond = true → t.msg? = some (classify s.cfg i.toFrame.payload))) ∧
    (∀ n, exec i s = .fault (.bufferOverflow n) → ∃ m, s.cfg.bufMax = some m ∧ m < 29)

/-- R132: a frame without start leaves the bytes of BUF in place and puts its payload after them, whatever BUF held; a flush
drains just that; BufferOverflow comes only under a finite BUF_MAX. -/
def Obligations.NonStartFrameAppends : Prop :=
  ∀ (i : Instr) (s : State), i.toFrame.start = 0 →
    (∀ t, exec i s = .next t →
      (i.toFrame.flushCond = false →
        t.buf.take s.buf.length = s.buf ∧ t.buf.drop s.buf.length = i.toFrame.payload) ∧
      (i.toFrame.flushCond = true → t.msg? = some (classify s.cfg (s.buf ++ i.toFrame.payload)))) ∧
    (∀ n, exec i s = .fault (.bufferOverflow n) → s.cfg.bufMax ≠ none)

/-- R141: reserved, command_code and sequence are not read: well-formed frames that differ in them alone have the same
outcome, for each of the four kinds. -/
def Obligations.ReservedCommandAndSequenceAreNotRead : Prop :=
  ∀ (r c q r' c' q' l : Nat) (p : Bytes) (s : State),
    ((Instr.frameCont r c q l p).wf = true → (Instr.frameCont r' c' q' l p).wf = true →
      exec (.frameCont r c q l p) s = exec (.frameCont r' c' q' l p) s) ∧
    ((Instr.frameLast r c q l p).wf = true → (Instr.frameLast r' c' q' l p).wf = true →
      exec (.frameLast r c q l p) s = exec (.frameLast r' c' q' l p) s) ∧
    ((Instr.frameFirst r c q l p).wf = true → (Instr.frameFirst r' c' q' l p).wf = true →
      exec (.frameFirst r c q l p) s = exec (.frameFirst r' c' q' l p) s) ∧
    ((Instr.frameSingle r c q l p).wf = true → (Instr.frameSingle r' c' q' l p).wf = true →
      exec (.frameSingle r c q l p) s = exec (.frameSingle r' c' q' l p) s)

/-- The frame of the four kinds (00_scope.md R4; 10_state.md R20, R32): the parameters, the trace and CNT are unchanged, one token
is consumed, one result is added and no earlier one changed, and that result exposes no Frame and is no error. BUF, the one
memory, is given by the statements above. -/
def Obligations.KindsLeaveEverythingElse : Prop :=
  ∀ (i : Instr) (s t : State), exec i s = .next t →
    t.cfg = s.cfg ∧ t.trace = s.trace ∧ t.pc = s.pc + 1 ∧ t.cnt = s.cnt ∧
    ∃ rep, t.results = ⟨none, rep⟩ :: s.results ∧ (∀ e, rep ≠ .error e)

/-- When an instruction stops and when it goes on (the spec's own decisions D7, D11, D28; logs 8, 11): it is refused exactly
when ill formed, it faults exactly when the updated BUF exceeds BUF_MAX, with BufferOverflow and no other fault, and it
completes in every other case. -/
def Obligations.InstructionStopsExactlyWhenSaid : Prop :=
  ∀ (i : Instr) (s : State),
    let b := if i.toFrame.start = 1 then i.toFrame.payload else s.buf ++ i.toFrame.payload
    (∀ r, exec i s = .refused r ↔ i.wf = false ∧ r = .frameMalformed i.toFrame) ∧
    (∀ r, exec i s = .fault r ↔ i.wf = true ∧ bufFits s.cfg b.length = false ∧ r = .bufferOverflow b.length) ∧
    ((∃ t, exec i s = .next t) ↔ i.wf = true ∧ bufFits s.cfg b.length = true)

/-- 41_reassembly.md section 4 (R146): on an empty BUF a frame without start does what the start frame does. -/
def Obligations.NonStartOnEmptyBufferOpensMessage : Prop :=
  ∀ (r c q l : Nat) (p : Bytes) (s : State), s.buf = [] →
    ((Instr.frameCont r c q l p).wf = true → exec (.frameCont r c q l p) s = exec (.frameFirst r c q l p) s) ∧
    ((Instr.frameLast r c q l p).wf = true → exec (.frameLast r c q l p) s = exec (.frameSingle r c q l p) s)

/-- 70_reset_and_hazards.md section 3 (R257): a duplicated CONT frame puts its payload in BUF twice; a duplicated LAST
frame yields a second message made of its payload alone. -/
def Obligations.DuplicatedFramesAreNotDetected : Prop :=
  ∀ (r c q l : Nat) (p : Bytes) (s t u : State),
    (exec (.frameCont r c q l p) s = .next t → exec (.frameCont r c q l p) t = .next u →
      p.length + 2 = l → u.buf = s.buf ++ p ++ p) ∧
    (exec (.frameLast r c q l p) s = .next t → exec (.frameLast r c q l p) t = .next u →
      u.results = ⟨none, .message (classify s.cfg p)⟩ :: t.results)

/-! ## Classification -/

/-- 42_classify.md R161 (the spec's own decision D8, log 13): the result is Text exactly when every byte is at most 0x7F. -/
def Obligations.TextExactlyWhenAscii : Prop :=
  ∀ (cfg : Config) (b : Bytes), (classify cfg b).kind = .text ↔ ∀ x ∈ b, x.toNat ≤ 0x7F

/-- 42_classify.md R162, R163, for every WS: TRIM takes bytes of WS off both ends, nothing else, and leaves none there. -/
def Obligations.TrimTakesWhitespaceOffBothEnds : Prop :=
  ∀ ws b : Bytes, ∃ before after : Bytes,
    b = before ++ trim ws b ++ after ∧ (∀ x ∈ before, x ∈ ws) ∧ (∀ x ∈ after, x ∈ ws) ∧
    (∀ x, (trim ws b).head? = some x → x ∉ ws) ∧ (∀ x, (trim ws b).getLast? = some x → x ∉ ws)

/-- R164, for every WS: a message is blank exactly when it is Text and every byte of the buffer is whitespace; it is then
the message Text(empty). A Raw result is never blank. -/
def Obligations.BlankExactlyWhenAllWhitespace : Prop :=
  ∀ (cfg : Config) (b : Bytes),
    ((classify cfg b).blank = true ↔ (classify cfg b).kind = .text ∧ ∀ x ∈ b, x ∈ cfg.ws) ∧
    ((classify cfg b).blank = true → classify cfg b = .text [])

/-- 42_classify.md R165 (D10), for every HEXFMT the model admits (log 4): the rendering determines the buffer. -/
def Obligations.HexIsInjective : Prop :=
  ∀ (fmt : HexFmt) (a b : Bytes), hex fmt a = hex fmt b → a = b

/-- 42_classify.md R165 (D10): under the default HEXFMT a buffer that is no text gives Raw with two lowercase digits per
byte, the most significant first, and nothing else: digit n is 0x30 + n below 10 and 0x57 + n from 10 to 15. -/
def Obligations.RawIsTwoLowercaseDigitsPerByte : Prop :=
  ∀ (cfg : Config) (b : Bytes), cfg.hexFmt = HexFmt.standard → (∃ x ∈ b, 0x7F < x.toNat) →
    ∃ h, classify cfg b = .raw h ∧ h.length = 2 * b.length ∧
      (∀ k, k < b.length →
        let hi := (b.getD k 0).toNat / 16
        let lo := (b.getD k 0).toNat % 16
        (h[2 * k]?.map BitVec.toNat) = some (if hi < 10 then 0x30 + hi else 0x57 + hi) ∧
        (h[2 * k + 1]?.map BitVec.toNat) = some (if lo < 10 then 0x30 + lo else 0x57 + lo)) ∧
      (∀ x ∈ h, (0x30 ≤ x.toNat ∧ x.toNat ≤ 0x39) ∨ (0x61 ≤ x.toNat ∧ x.toNat ≤ 0x66))

/-- 42_classify.md R167: the empty buffer is blank Text, and a LAST frame without payload on an empty BUF returns it. -/
def Obligations.EmptyBufferIsBlankText : Prop :=
  (∀ cfg, classify cfg [] = .text []) ∧
  ∀ (r c q l : Nat) (s t : State), s.buf = [] → exec (.frameLast r c q l []) s = .next t →
    t.results = ⟨none, .message (.text [])⟩ :: s.results

/-- 42_classify.md R168: a message is one of three: non-blank Text of the trimmed buffer, blank Text, or Raw of the whole
buffer, and only the second is blank. -/
def Obligations.ThreeOutcomesOfClassify : Prop :=
  ∀ (cfg : Config) (b : Bytes),
    (isText b = true ∧ trim cfg.ws b ≠ [] ∧ classify cfg b = .text (trim cfg.ws b) ∧ (classify cfg b).blank = false) ∨
    (isText b = true ∧ trim cfg.ws b = [] ∧ classify cfg b = .text [] ∧ (classify cfg b).blank = true) ∨
    (isText b = false ∧ classify cfg b = .raw (hex cfg.hexFmt b) ∧ (classify cfg b).blank = false)

/-! ## The step and the tokens -/

/-- 41_reassembly.md R142, R130: a step on a record that decodes is exec of its instruction, with the Frame exposed beside
the result; a step on a well-formed Frame is exec of its frame kind. The third clause, that a step after
withFetchWord is exec of the table word's instruction, with the Frame exposed, is about the model's own choice of how a
table word is placed (DESIGN CHOICE, log 10). -/
def Obligations.StepRunsTheDecodedInstruction : Prop :=
  ∀ s : State,
    (∀ raw i, s.token? = some (.record raw) → decode raw = .ok i → step s = exposing i.toFrame (exec i s)) ∧
    (∀ f, s.token? = some (.frame f) → f.wf = true → step s = exec f.toInstr s) ∧
    (∀ w i, decodeTableWord 16 w = some i →
      step (s.withFetchWord 16 w) = exposing i.toFrame (exec i (s.withFetchWord 16 w)))

/-- 60_exceptions.md R222 (the spec's own decision D16): a record DECODE rejects gives the result Error(e); BUF and CNT are
as before, no Frame is exposed, and the next token is next. -/
def Obligations.DecodeErrorChangesNothing : Prop :=
  ∀ (s : State) (raw : Bytes) (e : DecodeError), s.token? = some (.record raw) → decode raw = .error e →
    ∃ t, step s = .next t ∧ t.buf = s.buf ∧ t.cnt = s.cnt ∧ t.pc = s.pc + 1 ∧ t.trace = s.trace ∧ t.cfg = s.cfg ∧
      t.results = ⟨none, .error e⟩ :: s.results

/-- 60_exceptions.md R217 (the spec's own decision D7, log 11): a Frame at the port that breaks WF is refused. -/
def Obligations.MalformedFrameIsRefused : Prop :=
  ∀ (s : State) (f : Frame), s.token? = some (.frame f) → f.wf = false → step s = .refused (.frameMalformed f)

/-- 41_reassembly.md R143, R144 (the spec's own decisions D2, D17; log 1): NoFrame changes nothing but pc; Reset empties
BUF without a message; neither writes CNT. -/
def Obligations.NoFrameAndResetTokens : Prop :=
  ∀ s : State,
    (s.token? = some .noFrame → ∃ t, step s = .next t ∧ t.buf = s.buf ∧ t.cnt = s.cnt ∧ t.pc = s.pc + 1 ∧
      t.trace = s.trace ∧ t.cfg = s.cfg ∧ t.results = ⟨none, .nothing⟩ :: s.results) ∧
    (s.token? = some .reset → ∃ t, step s = .next t ∧ t.buf = [] ∧ t.cnt = s.cnt ∧ t.pc = s.pc + 1 ∧
      t.trace = s.trace ∧ t.cfg = s.cfg ∧ t.results = ⟨none, .nothing⟩ :: s.results)

/-- 70_reset_and_hazards.md section 2 (R271), 92_eei_decisions.md D14: a run ends when the trace is used up. That a step with
no token left answers the same state is the model's own choice (DESIGN CHOICE, log 2). -/
def Obligations.EndOfTraceWaits : Prop :=
  ∀ s : State, s.trace.length ≤ s.pc → step s = .next s

/-- The frame of a step on any token (00_scope.md R4; 10_state.md R20, R32): the parameters, the trace and CNT are unchanged,
pc advances by one, and one result is added. -/
def Obligations.StepFrameOnEveryToken : Prop :=
  ∀ (s t : State), s.pc < s.trace.length → step s = .next t →
    t.cfg = s.cfg ∧ t.trace = s.trace ∧ t.pc = s.pc + 1 ∧ t.cnt = s.cnt ∧ ∃ res, t.results = res :: s.results

/-- 00_scope.md R4, 10_state.md R20, R31: CNT is outside the block. A step does the same whatever CNT holds and hands it on
untouched, and so does a turn of any channel's loop, whatever its reader; where it stops, it stops for the same reason. Only the detector counts (DetectorCountsExactlyBlankMessages). That CNT stands in State beside the block is the model's own choice (DESIGN CHOICE, log 1). -/
def Obligations.BlockNeitherReadsNorWritesCount : Prop :=
  (∀ (s : State) (n : Nat), step (s.setCnt n) = andThen (step s) fun t => .next (t.setCnt n)) ∧
  (∀ (reader : Transport → Option (Token × Transport)) (c : Channel) (n : Nat),
    turn reader ⟨c.state.setCnt n, c.transport⟩ = (turn reader c).map fun d => ⟨d.state.setCnt n, d.transport⟩) ∧
  (∀ (reader : Transport → Option (Token × Transport)) (c c' : Channel), turn reader c = .ok c' →
    c'.state.cnt = c.state.cnt)

/-- 40_decode.md R113 with 70_reset_and_hazards.md R262: for a record that decodes, a message comes exactly when bit 6 of
byte0 is set; the short-fragment clause never is the reason. -/
def Obligations.RecordFlushesExactlyOnEndBit : Prop :=
  ∀ (s t : State) (raw : Bytes) (i : Instr), s.token? = some (.record raw) → decode raw = .ok i → step s = .next t →
    ∃ res, t.results = res :: s.results ∧ (res.flushFlag = true ↔ (recByte raw 0).toNat / 64 % 2 = 1)

/-- 20_memory.md R58 (c) and 10_state.md R22: with the same parameters, the new BUF and the result depend on BUF and the
token alone: not on FR, PAY or MSG of an earlier operation, not on CNT, pc or the rest of the trace. -/
def Obligations.OperationDependsOnlyOnBufAndToken : Prop :=
  ∀ (k : Token) (s1 s2 t1 t2 : State), s1.buf = s2.buf → s1.cfg = s2.cfg →
    runToken k s1 = .next t1 → runToken k s2 = .next t2 →
    t1.buf = t2.buf ∧ t1.results.head? = t2.results.head?

/-- 10_state.md R21, R22, R23 (the spec's own decision D13, log 5): after a record that decodes the caller reads the six
fields and the payload; after a rejected record, a Frame at the port, NoFrame or Reset a read of either is a fault. -/
def Obligations.CallerReadsFrameRegisters : Prop :=
  ∀ s t : State, step s = .next t →
    (∀ raw f, s.token? = some (.record raw) → decodeFrame raw = .ok f →
      readFR t 0 = .ok f.start ∧ readFR t 1 = .ok f.endBit ∧ readFR t 2 = .ok f.reserved ∧
      readFR t 3 = .ok f.commandCode ∧ readFR t 4 = .ok f.sequence ∧ readFR t 5 = .ok f.declaredLength ∧
      readPAY t = .ok f.payload) ∧
    ((∃ raw e, s.token? = some (.record raw) ∧ decodeFrame raw = .error e) ∨
        (∃ f, s.token? = some (.frame f)) ∨ s.token? = some .noFrame ∨ s.token? = some .reset →
      (∀ i, readFR t i = .error .frNoValue) ∧ readPAY t = .error .payNoValue)

/-- 10_state.md R34, 70_reset_and_hazards.md R251: BUF is empty, CNT and pc are 0, FR, PAY and MSG hold no value, and the
invariant holds. -/
def Obligations.ResetStateIsAsSaid : Prop :=
  State.reset.buf = [] ∧ State.reset.cnt = 0 ∧ State.reset.pc = 0 ∧
  (∀ i, readFR State.reset i = .error .frNoValue) ∧ readPAY State.reset = .error .payNoValue ∧
  State.reset.msg? = none ∧ State.reset.Inv

/-- Every step keeps the invariant: BUF within BUF_MAX, one result per token consumed, every exposed Frame well formed and
complete, every message a classified buffer (R56, R32, R150, R113, R134). What holds of CNT is
DetectorTurnKeepsItsInvariant: only a detector run counts (R31, R227; log 1). -/
def Obligations.StepKeepsTheMachineInvariant : Prop :=
  ∀ s t : State, s.Inv → step s = .next t → t.Inv

/-- 41_reassembly.md R148: any number of steps, from any state, leaves the BUF and the results that the table machine gives
for the tokens taken. -/
def Obligations.RunsAgreeWithTheTableMachine : Prop :=
  ∀ (n : Nat) (s t : State), Sys2Proof.core.run n s = .next t →
    t.buf = (tableRun s.cfg s.buf ((s.trace.drop s.pc).take n)).1 ∧
    t.results.map OpResult.reply =
      (tableRun s.cfg s.buf ((s.trace.drop s.pc).take n)).2.reverse ++ s.results.map OpResult.reply

/-- 60_exceptions.md R225, 92 D28: with BUF_MAX unbounded and every port frame well formed, nothing stops a run: it consumes
its whole trace, whatever the records are and whatever CNT_WIDTH is. -/
def Obligations.UnboundedRunConsumesItsTrace : Prop :=
  ∀ s : State, s.cfg.bufMax = none → portFramesOk s.trace → s.pc ≤ s.trace.length →
    ∃ t, Sys2Proof.core.run (s.trace.length - s.pc) s = .next t ∧ t.final = true ∧ t.trace = s.trace

/-! ## The environment -/

/-- 43_environment.md R181: an open Transport delivers bytes in the order sent, at most as many as asked for, and loses
none. -/
def Obligations.TransportDeliversInOrder : Prop :=
  ∀ (n : Nat) (t : Transport), t.isOpen = true → ∃ p t', t.read n = some (p, t') ∧ p.length ≤ n ∧
    p ++ t'.queue ++ t'.arrivals.flatten = t.queue ++ t.arrivals.flatten

/-- 60_exceptions.md R216, 43_environment.md R181, R192, R198, 70_reset_and_hazards.md R253: a Transport that is not open, or
whose connect failed, is surfaced by every access to it and by every channel that would use it, and nothing is read, sent
or fed; the text channel answers its sentinel. -/
def Obligations.ClosedTransportIsSurfaced : Prop :=
  ∀ t : Transport, t.connect none = none ∧ (t.isOpen = false →
    (∀ n, t.read n = none) ∧ (∀ b, t.write b = none) ∧ t.available = none ∧
    retryingRead t = none ∧ bestEffortRead t = none ∧ stopOnly t = none ∧
    (∀ turns cmd s, send turns cmd ⟨s, t⟩ = .stopped .transportUnavailable ⟨s, t⟩) ∧
    (∀ n s, streamTurns (n + 1) ⟨s, t⟩ = .stopped .transportUnavailable ⟨s, t⟩) ∧
    (∀ cfg duration clock, runDetector cfg duration clock t = .stopped .transportUnavailable t) ∧
    (∀ wait clock cmd, sendText wait clock cmd t = .text Config.textSentinel t))

/-- 43_environment.md section 4 (R188, which the spec derives): on an open Transport each call of either reader yields NoFrame
or a record of at least 2 bytes and exactly declared_length bytes by its own header. DECODE raises no error on such a record,
and its Frame is payload-complete, so the short-fragment clause never is the reason for a flush. That a header with
declared_length 0 or 1 yields NoFrame, so that LengthFieldInvalid does not come either, is the model's reading of R188
(DEDUCED, log 16). -/
def Obligations.ReadersHandOverWholeRecords : Prop :=
  ∀ t : Transport,
    (t.isOpen = true → (∃ k t', retryingRead t = some (k, t')) ∧ (∃ k t', bestEffortRead t = some (k, t'))) ∧
    (∀ k t', retryingRead t = some (k, t') ∨ bestEffortRead t = some (k, t') →
      k = .noFrame ∨
      ∃ raw i, k = .record raw ∧ 2 ≤ raw.length ∧ raw.length = (recByte raw 1).toNat % 32 ∧ decode raw = .ok i ∧
        i.toFrame.payloadComplete = true ∧ i.toFrame.short = false)

/-- 43_environment.md R185, R187, R199: a whole record at the head of the queue is handed over by either reader, and what
stands behind it stays on the link. -/
def Obligations.WaitingRecordIsHandedOver : Prop :=
  ∀ (t : Transport) (raw rest : Bytes), t.isOpen = true → t.queue = raw ++ rest → 2 ≤ raw.length →
    raw.length = (recByte raw 1).toNat % 32 →
    (∃ t', retryingRead t = some (.record raw, t') ∧
      t'.queue ++ t'.arrivals.flatten = rest ++ t.arrivals.flatten) ∧
    (∃ t', bestEffortRead t = some (.record raw, t') ∧
      t'.queue ++ t'.arrivals.flatten = rest ++ t.arrivals.flatten)

/-- 43_environment.md R189, R190, 30_encoding.md R82: what send returns is the message of the operation that ended it, the
command was written once with its line end, and before it no message was returned. -/
def Obligations.SendReturnsTheFirstMessage : Prop :=
  ∀ (turns : Nat) (cmd : Command) (c c' : Channel) (m : Message), send turns cmd c = .message m c' →
    c'.state.msg? = some m ∧ c'.transport.written = c.transport.written ++ [outboundBytes cmd] ∧
    ∃ rs, c'.state.results = rs ++ c.state.results ∧ rs.filterMap (fun r => r.reply.message?) = [m]

/-- 43_environment.md R191: with a device that never responds send waits for any number of turns. -/
def Obligations.SilentDeviceKeepsSendWaiting : Prop :=
  ∀ (turns : Nat) (cmd : Command) (c : Channel), c.transport.isOpen = true → c.transport.queue = [] →
    c.transport.arrivals = [] → ∃ c', send turns cmd c = .waiting c' ∧ c'.state.buf = c.state.buf

/-- 43_environment.md R192, 70_reset_and_hazards.md R266. The text channel ends once a clock sample reaches the window. Its
output is the lines it took, each decoded and with the separator after it; the lines, with what was left out of each, are
the first bytes of the link, and all later bytes stay there. Each turn before the window polls once: when a line waits, it
leaves the link and its kept part is decoded and appended with the separator; when none does, nothing leaves and nothing is
appended. The model's own choices in it: that the command is written with its line end (DEDUCED, log 17), the clock samples
and that the window is over when the elapsed time equals it (DESIGN CHOICE, log 18), that bytes above 0x7F are the invalid
ones that are ignored (DESIGN CHOICE, log 20), and where a line ends and what of it is kept, two free values (log 25). -/
def Obligations.TextChannelTakesItsLinesFromTheLink : Prop :=
  (∀ (wait : Nat) (clock : List Nat) (cmd : Command) (t : Transport), t.isOpen = true →
    sendText wait clock cmd t = textLoop wait clock [] { t with written := t.written ++ [outboundBytes cmd] }) ∧
  (∀ (wait elapsed : Nat) (clock : List Nat) (out : Bytes) (t : Transport), t.isOpen = true → elapsed < wait →
    let waiting := t.queue ++ t.arrivals.headD []
    let line := waiting.take (Config.lineTaken waiting)
    let later := { t with arrivals := t.arrivals.tail, reads := t.reads + 1 }
    (line ≠ [] →
      textLoop wait (elapsed :: clock) out t =
        textLoop wait clock (out ++ textOfLine (line.take (Config.lineKept waiting)) ++ Config.textSeparator)
          { later with queue := waiting.drop (Config.lineTaken waiting) }) ∧
    (line = [] → textLoop wait (elapsed :: clock) out t = textLoop wait clock out { later with queue := waiting })) ∧
  ∀ (wait : Nat) (clock : List Nat) (cmd : Command) (t : Transport), t.isOpen = true → (∃ e ∈ clock, wait ≤ e) →
    ∃ (out : Bytes) (t' : Transport) (lines : List (Bytes × Bytes)), sendText wait clock cmd t = .text out t' ∧
      t'.written = t.written ++ [outboundBytes cmd] ∧
      out = lines.flatMap (fun l => textOfLine l.1 ++ Config.textSeparator) ∧
      t.queue ++ t.arrivals.flatten =
        lines.flatMap (fun l => l.1 ++ l.2) ++ (t'.queue ++ t'.arrivals.flatten)

/-- 43_environment.md R193, R194, R197: a blank-frame run of duration 0 starts from an empty state with CNT 0, writes the
start command and then the stop command, presents no record, takes nothing from the link and returns 0. -/
def Obligations.DetectorOfZeroDurationReturnsZero : Prop :=
  ∀ (cfg : Config) (elapsed : Nat) (clock : List Nat) (t : Transport), t.isOpen = true →
    (∃ c, startRun cfg t = .ok c ∧ c.state.trace = [.reset] ∧ c.state.buf = [] ∧ c.state.cnt = 0) ∧
    runDetector cfg 0 (elapsed :: clock) t =
      .count 0 { t with written := t.written ++ [outboundBytes Config.startCommand, outboundBytes Config.stopCommand] }

/-- 43_environment.md R194, 60_exceptions.md R227: a detector's operation, be it a turn of its loop or a step of a recorded
run, is the block's operation and then CNT plus 1 exactly when its one result is a blank message; CNT is else unchanged,
and nothing but CNT is written by the count. -/
def Obligations.DetectorCountsExactlyBlankMessages : Prop :=
  (∀ c c' : Channel, detectorTurn c = .ok c' →
    ∃ res d, turn bestEffortRead c = .ok d ∧ d.state.results = res :: c.state.results ∧
      c' = ⟨d.state.setCnt (c.state.cnt + if res.blankFlag = true then 1 else 0), d.transport⟩) ∧
  (∀ s t : State, s.pc < s.trace.length → detectorStep s = .next t →
    ∃ res u, step s = .next u ∧ u.results = res :: s.results ∧
      t = u.setCnt (s.cnt + if res.blankFlag = true then 1 else 0))

/-- 60_exceptions.md R227, 10_state.md R31: every turn of a detector run keeps the invariant and CNT equal to the number of
blank messages of the run and within CNT_WIDTH (the top of CNT_WIDTH as log 9 reads it), and CNT never decreases. -/
def Obligations.DetectorTurnKeepsItsInvariant : Prop :=
  ∀ c c' : Channel, c.state.Inv → c.state.CountInv → detectorTurn c = .ok c' →
    c'.state.Inv ∧ c'.state.CountInv ∧ c.state.cnt ≤ c'.state.cnt

/-- 43_environment.md R194, R196, 60_exceptions.md R227: the count a blank-frame run returns is the number of blank messages
the block delivered in it. -/
def Obligations.DetectorReturnsTheNumberOfBlankMessages : Prop :=
  ∀ (cfg : Config) (duration : Nat) (clock : List Nat) (t t' : Transport) (n : Nat),
    runDetector cfg duration clock t = .count n t' →
    ∃ c c', startRun cfg t = .ok c ∧ detectorLoop duration clock c = .ended c' ∧ t' = c'.transport ∧
      c'.state.cfg = cfg ∧ n = (c'.state.messages.filter Message.blank).length

/-- 43_environment.md R194, R195, R225: with unbounded capacities a run ends with a count once a clock sample reaches the
deadline, whatever the transport delivers. -/
def Obligations.DetectorEndsAtItsDeadline : Prop :=
  ∀ (cfg : Config) (duration : Nat) (clock : List Nat) (t : Transport), t.isOpen = true → unboundedCfg cfg = true →
    (∃ e ∈ clock, duration ≤ e) → ∃ n t', runDetector cfg duration clock t = .count n t'

/-- 60_exceptions.md R230: an operation on one channel neither reads nor writes another, also where that channel's instance
stops; an instance that stopped stays so (log 23). -/
def Obligations.ChannelsAreIndependent : Prop :=
  ∀ (k : Nat) (cs : List Out),
    (stepChannel k cs).length = cs.length ∧
    (∀ j, j ≠ k → (stepChannel k cs)[j]? = cs[j]?) ∧
    (∀ s, cs[k]? = some (.next s) → (stepChannel k cs)[k]? = some (step s)) ∧
    (∀ r, cs[k]? = some (.fault r) → (stepChannel k cs)[k]? = some (.fault r)) ∧
    (∀ r, cs[k]? = some (.refused r) → (stepChannel k cs)[k]? = some (.refused r))

/-- 30_encoding.md R82, 43_environment.md R189, R192, R193, R194, R196: an outbound message is ASCII text with CR and LF
after it, and any ASCII text has its message. Whatever a call ends in, on an open Transport send and send_text write the one
message of their command and nothing else; a detector run writes the start command, and the stop command after it exactly
when it ends at its deadline; the companion operation writes the stop command alone; the streaming loop writes nothing.
The model's own in it: that send_text too writes the line end (DEDUCED, log 17), and that the streaming loop itself writes
no command, which R198 and N17 leave open (DESIGN CHOICE, log 23). -/
def Obligations.OutboundMessagesAreAsciiLines : Prop :=
  (∀ b : Bytes, (∃ cmd : Command, outboundBytes cmd = b) ↔ ∃ text : Bytes, b = text ++ [0x0D, 0x0A] ∧ ∀ x ∈ text, x.toNat ≤ 0x7F) ∧
  ∀ t : Transport, t.isOpen = true →
    (∀ turns cmd s, match send turns cmd ⟨s, t⟩ with
      | .message _ c | .waiting c | .stopped _ c => c.transport.written = t.written ++ [outboundBytes cmd]) ∧
    (∀ wait clock cmd, match sendText wait clock cmd t with
      | .text _ u | .polling _ u => u.written = t.written ++ [outboundBytes cmd]) ∧
    (∀ cfg duration clock, match runDetector cfg duration clock t with
      | .count _ u => u.written = t.written ++ [outboundBytes Config.startCommand, outboundBytes Config.stopCommand]
      | .running c => c.transport.written = t.written ++ [outboundBytes Config.startCommand]
      | .stopped _ u => u.written = t.written ++ [outboundBytes Config.startCommand]) ∧
    (stopOnly t = some { t with written := t.written ++ [outboundBytes Config.stopCommand] }) ∧
    (∀ n s, match streamTurns n ⟨s, t⟩ with
      | .running c | .stopped _ c => c.transport.written = t.written)
end

