-- ==== Sys2Proof/Laws/Classify.lean ====
section
/-! SUPPORT. Small lemmas of IS_TEXT, TRIM, HEX and CLASSIFY. -/

namespace Sys2Proof.Machine

theorem isText_iff (b : Bytes) : isText b = true ↔ ∀ x ∈ b, x.toNat ≤ 127 := by simp [isText]

theorem isWs_iff (ws : Bytes) (x : Byte) : isWs ws x = true ↔ x ∈ ws := by simp [isWs]

theorem classify_text {cfg : Config} {b : Bytes} (h : isText b = true) : classify cfg b = .text (trim cfg.ws b) := by
  simp [classify, h]

theorem classify_raw {cfg : Config} {b : Bytes} (h : isText b = false) : classify cfg b = .raw (hex cfg.hexFmt b) := by
  simp [classify, h]

@[simp] theorem hexByte_length (u : Bool) (x : Byte) : (hexByte u x).length = 2 := rfl

end Sys2Proof.Machine
end

