-- ==== Sys2Proof/Laws/WellFormed.lean ====
section
/-! SUPPORT. WF and the two kinds of well-formed frame in natural numbers, and the map between Frames and instructions. -/

namespace Sys2Proof

/-- WF check by check. -/
theorem Frame.wf_iff (f : Frame) : f.wf = true ↔
    f.start ≤ 1 ∧ f.endBit ≤ 1 ∧ f.reserved ≤ 1 ∧ f.commandCode ≤ 31 ∧ f.sequence ≤ 7 ∧ 2 ≤ f.declaredLength ∧
      f.declaredLength ≤ 31 ∧ f.payload.length + 2 ≤ f.declaredLength := by
  have hc : 2 ^ cmdBits = 32 := rfl
  have hs : 2 ^ seqBits = 8 := rfl
  simp only [Frame.wf, Frame.startOk, Frame.endOk, Frame.reservedOk, Frame.commandOk, Frame.sequenceOk,
    Frame.lengthMinOk, Frame.lengthMaxOk, Frame.payloadOk, hc, hs, Bool.and_eq_true, decide_eq_true_eq]
  simp only [lenMin, lenMax]
  omega

theorem Frame.short_iff (f : Frame) : f.short = true ↔ f.payload.length + 2 < f.declaredLength := by
  simp only [Frame.short, decide_eq_true_eq]
  omega

theorem Frame.payloadComplete_iff (f : Frame) :
    f.payloadComplete = true ↔ f.payload.length + 2 = f.declaredLength := by
  simp only [Frame.payloadComplete, decide_eq_true_eq]
  omega

/-- A payload-complete frame is not short. -/
theorem Frame.not_short_of_complete {f : Frame} (h : f.payloadComplete = true) : f.short = false := by
  rw [Frame.payloadComplete_iff] at h
  rw [← Bool.not_eq_true, Frame.short_iff]
  omega

/-- The frame kind of a Frame whose two bits are bits stands for that Frame. -/
theorem Frame.toFrame_toInstr {f : Frame} (hs : f.start ≤ 1) (he : f.endBit ≤ 1) : f.toInstr.toFrame = f := by
  obtain ⟨st, en, r, c, q, l, p⟩ := f
  obtain rfl | rfl : st = 0 ∨ st = 1 := by simp only at hs; omega
  all_goals obtain rfl | rfl : en = 0 ∨ en = 1 := by simp only at he; omega
  all_goals rfl

@[simp] theorem Instr.toInstr_toFrame (i : Instr) : i.toFrame.toInstr = i := by cases i <;> rfl

theorem Frame.toInstr_wf {f : Frame} (h : f.wf = true) : f.toInstr.wf = true := by
  have h' := (Frame.wf_iff f).1 h
  rw [Instr.wf, Frame.toFrame_toInstr h'.1 h'.2.1, h]

end Sys2Proof
end

