-- ==== Sys2Proof/Laws/Decode.lean ====
section
/-! SUPPORT. The fields of a header as quotients and remainders, what DECODE answers in each case, and the header bytes of
an encoded instruction. -/

namespace Sys2Proof

theorem getStart_eq (b : Byte) : getStart b = b.toNat / 128 := by
  have := b.isLt
  simp only [getStart, bits]; omega
theorem getEnd_eq (b : Byte) : getEnd b = b.toNat / 64 % 2 := by simp [getEnd, bits]
theorem getReserved_eq (b : Byte) : getReserved b = b.toNat / 32 % 2 := by simp [getReserved, bits]
theorem getCmd_eq (b : Byte) : getCmd b = b.toNat % 32 := by simp only [getCmd, bits]; omega
theorem getSeq_eq (b : Byte) : getSeq b = b.toNat / 32 := by
  have := b.isLt
  simp only [getSeq, bits]; omega
theorem getLen_eq (b : Byte) : getLen b = b.toNat % 32 := by simp only [getLen, bits]; omega

theorem getLen_lt (b : Byte) : getLen b < 32 := by rw [getLen_eq]; omega

/-- The payload DECODE slices off has declared_length − 2 bytes when the record has declared_length bytes. -/
theorem getPayload_length {raw : Bytes} {len : Nat} (h : len ≤ raw.length) :
    (getPayload raw len).length = len - 2 := by
  simp only [getPayload, memRead, hdrLen, List.length_take, List.length_drop]; omega

/-- The Frame DECODE answers when its three checks pass. -/
def decodedFrame (raw : Bytes) : Frame :=
  ⟨getStart (recByte raw 0), getEnd (recByte raw 0), getReserved (recByte raw 0), getCmd (recByte raw 0),
    getSeq (recByte raw 1), getLen (recByte raw 1), getPayload raw (getLen (recByte raw 1))⟩

theorem decodeFrame_cases (raw : Bytes) :
    (raw.length < 2 ∧ decodeFrame raw = .error (.headerTooShort raw.length)) ∨
    (2 ≤ raw.length ∧ getLen (recByte raw 1) < 2 ∧
      decodeFrame raw = .error (.lengthFieldInvalid (getLen (recByte raw 1)))) ∨
    (2 ≤ raw.length ∧ 2 ≤ getLen (recByte raw 1) ∧ raw.length < getLen (recByte raw 1) ∧
      decodeFrame raw = .error (.lengthMismatch raw.length (getLen (recByte raw 1)))) ∨
    (2 ≤ raw.length ∧ 2 ≤ getLen (recByte raw 1) ∧ getLen (recByte raw 1) ≤ raw.length ∧
      decodeFrame raw = .ok (decodedFrame raw)) := by
  by_cases h2 : raw.length < 2
  · exact .inl ⟨h2, by simp [decodeFrame, hdrLen, h2]⟩
  by_cases hl : getLen (recByte raw 1) < 2
  · exact .inr (.inl ⟨by omega, hl, by simp [decodeFrame, hdrLen, lenMin, h2, hl]⟩)
  by_cases hn : raw.length < getLen (recByte raw 1)
  · exact .inr (.inr (.inl ⟨by omega, by omega, hn, by simp [decodeFrame, hdrLen, lenMin, h2, hl, hn]⟩))
  · exact .inr (.inr (.inr ⟨by omega, by omega, by omega,
      by simp [decodeFrame, hdrLen, lenMin, decodedFrame, h2, hl, hn]⟩))

/-- DECODE answers its Frame when the three checks pass. -/
theorem decodeFrame_ok {raw : Bytes} (h1 : 2 ≤ raw.length) (h2 : 2 ≤ getLen (recByte raw 1))
    (h3 : getLen (recByte raw 1) ≤ raw.length) : decodeFrame raw = .ok (decodedFrame raw) := by
  rcases decodeFrame_cases raw with ⟨_, _⟩ | ⟨_, _, _⟩ | ⟨_, _, _, _⟩ | ⟨_, _, _, hd⟩
  · omega
  · omega
  · omega
  · exact hd

/-- What DECODE answered, and that its three checks passed. -/
theorem decodeFrame_eq_ok {raw : Bytes} {f : Frame} (h : decodeFrame raw = .ok f) :
    f = decodedFrame raw ∧ 2 ≤ raw.length ∧ 2 ≤ getLen (recByte raw 1) ∧ getLen (recByte raw 1) ≤ raw.length := by
  rcases decodeFrame_cases raw with ⟨_, hd⟩ | ⟨_, _, hd⟩ | ⟨_, _, _, hd⟩ | ⟨h1, h2, h3, hd⟩ <;> rw [hd] at h <;> cases h
  exact ⟨rfl, h1, h2, h3⟩

/-- `decode` answers an instruction exactly when `decodeFrame` answers its Frame. -/
theorem decode_eq_ok {raw : Bytes} {i : Instr} (h : decode raw = .ok i) : decodeFrame raw = .ok i.toFrame := by
  rw [decode] at h
  rcases decodeFrame_cases raw with ⟨_, hd⟩ | ⟨_, _, hd⟩ | ⟨_, _, _, hd⟩ | ⟨_, _, _, hd⟩ <;> rw [hd] at h
  · cases h
  · cases h
  · cases h
  · cases h
    rw [hd, Frame.toFrame_toInstr]
    · have := (recByte raw 0).isLt; simp only [decodedFrame, getStart_eq]; omega
    · simp only [decodedFrame, getEnd_eq]; omega

theorem decode_of_decodeFrame {raw : Bytes} {f : Frame} (h : decodeFrame raw = .ok f) : decode raw = .ok f.toInstr := by
  rw [decode, h]

theorem decode_eq_error {raw : Bytes} {e : DecodeError} : decode raw = .error e ↔ decodeFrame raw = .error e := by
  rw [decode]; cases decodeFrame raw <;> simp

/-- Header byte0 as a number, for fields in range. -/
theorem headerByte0_toNat {f : Frame} (h : f.wf = true) :
    (headerByte0 f).toNat = 128 * f.start + 64 * f.endBit + 32 * f.reserved + f.commandCode := by
  rw [Frame.wf_iff] at h
  simp only [headerByte0, BitVec.toNat_ofNat]; omega

/-- Header byte1 as a number, for fields in range. -/
theorem headerByte1_toNat {f : Frame} (h : f.wf = true) :
    (headerByte1 f).toNat = 32 * f.sequence + f.declaredLength := by
  rw [Frame.wf_iff] at h
  simp only [headerByte1, BitVec.toNat_ofNat]; omega

@[simp] theorem recByte_encode_zero (i : Instr) : recByte (encode i) 0 = headerByte0 i.toFrame := rfl
@[simp] theorem recByte_encode_one (i : Instr) : recByte (encode i) 1 = headerByte1 i.toFrame := rfl
@[simp] theorem encode_length (i : Instr) : (encode i).length = i.toFrame.payload.length + 2 := by simp [encode]

end Sys2Proof
end

