-- ==== Sys2Proof/Laws/State.lean ====
section
/-! SUPPORT. One lemma per field and update of State, true by rfl. -/

namespace Sys2Proof.Machine

variable (s : State) (b : Bytes) (n : Nat) (r : Reply) (f : Frame) (t : Token)

@[simp] theorem State.setBuf_buf : (s.setBuf b).buf = b := rfl
@[simp] theorem State.setBuf_cnt : (s.setBuf b).cnt = s.cnt := rfl
@[simp] theorem State.setBuf_pc : (s.setBuf b).pc = s.pc := rfl
@[simp] theorem State.setBuf_trace : (s.setBuf b).trace = s.trace := rfl
@[simp] theorem State.setBuf_results : (s.setBuf b).results = s.results := rfl
@[simp] theorem State.setBuf_cfg : (s.setBuf b).cfg = s.cfg := rfl

@[simp] theorem State.setCnt_buf : (s.setCnt n).buf = s.buf := rfl
@[simp] theorem State.setCnt_cnt : (s.setCnt n).cnt = n := rfl
@[simp] theorem State.setCnt_pc : (s.setCnt n).pc = s.pc := rfl
@[simp] theorem State.setCnt_trace : (s.setCnt n).trace = s.trace := rfl
@[simp] theorem State.setCnt_results : (s.setCnt n).results = s.results := rfl
@[simp] theorem State.setCnt_cfg : (s.setCnt n).cfg = s.cfg := rfl

@[simp] theorem State.emit_buf : (s.emit r).buf = s.buf := rfl
@[simp] theorem State.emit_cnt : (s.emit r).cnt = s.cnt := rfl
@[simp] theorem State.emit_pc : (s.emit r).pc = s.pc + 1 := rfl
@[simp] theorem State.emit_trace : (s.emit r).trace = s.trace := rfl
@[simp] theorem State.emit_results : (s.emit r).results = ⟨none, r⟩ :: s.results := rfl
@[simp] theorem State.emit_cfg : (s.emit r).cfg = s.cfg := rfl

@[simp] theorem State.expose_buf : (s.expose f).buf = s.buf := rfl
@[simp] theorem State.expose_cnt : (s.expose f).cnt = s.cnt := rfl
@[simp] theorem State.expose_pc : (s.expose f).pc = s.pc := rfl
@[simp] theorem State.expose_trace : (s.expose f).trace = s.trace := rfl
@[simp] theorem State.expose_results : (s.expose f).results = exposeIn f s.results := rfl
@[simp] theorem State.expose_cfg : (s.expose f).cfg = s.cfg := rfl

@[simp] theorem State.withToken_buf : (s.withToken t).buf = s.buf := rfl
@[simp] theorem State.withToken_cnt : (s.withToken t).cnt = s.cnt := rfl
@[simp] theorem State.withToken_pc : (s.withToken t).pc = s.pc := rfl
@[simp] theorem State.withToken_trace : (s.withToken t).trace = placeAt s.pc t s.trace := rfl
@[simp] theorem State.withToken_results : (s.withToken t).results = s.results := rfl
@[simp] theorem State.withToken_cfg : (s.withToken t).cfg = s.cfg := rfl

@[simp] theorem clearBuf_eq : clearBuf s = s.setBuf [] := rfl

@[simp] theorem exposeIn_cons (x : OpResult) (rest : List OpResult) :
    exposeIn f (x :: rest) = ⟨some f, x.reply⟩ :: rest := rfl

@[simp] theorem exposeIn_length (rs : List OpResult) : (exposeIn f rs).length = rs.length := by cases rs <;> rfl

@[simp] theorem exposeIn_replies (rs : List OpResult) :
    (exposeIn f rs).map OpResult.reply = rs.map OpResult.reply := by cases rs <;> rfl

/-- The token placed is the token the next step takes. -/
@[simp] theorem placeAt_get (tr : List Token) : (placeAt n t tr)[n]? = some t := by
  induction n generalizing tr with
  | zero => rfl
  | succ n ih => cases tr <;> simpa [placeAt] using ih _

@[simp] theorem State.withToken_token : (s.withToken t).token? = some t := placeAt_get _ _ _

/-- Placing a token at the end of the trace appends it. -/
theorem placeAt_length (tr : List Token) : placeAt tr.length t tr = tr ++ [t] := by
  induction tr with
  | nil => rfl
  | cons a tr ih => simp [placeAt, ih]

end Sys2Proof.Machine
end

