-- ==== Sys2Proof/Laws/Ops.lean ====
section
/-! SUPPORT. For each shared operation one lemma that says what it can answer. -/

namespace Sys2Proof.Machine

@[simp] theorem andThen_next (s : State) (k : State → Out) : andThen (.next s) k = k s := rfl
@[simp] theorem andThen_fault (r : Fault) (k : State → Out) : andThen (.fault r) k = .fault r := rfl
@[simp] theorem andThen_refused (r : Refusal) (k : State → Out) : andThen (.refused r) k = .refused r := rfl

theorem andThen_eq_next {o : Out} {k : State → Out} {t : State} (h : andThen o k = .next t) :
    ∃ s, o = .next s ∧ k s = .next t := by
  cases o with
  | next s => exact ⟨s, rfl, h⟩
  | fault r => cases h
  | refused r => cases h

/-- A store into BUF that goes on stored the bytes, which fit, and nothing else. -/
theorem storeBuf_eq_next {b : Bytes} {s t : State} (h : storeBuf b s = .next t) :
    bufFits s.cfg b.length = true ∧ t = s.setBuf b := by
  rw [storeBuf] at h
  split at h
  · exact ⟨‹_›, by cases h; rfl⟩
  · cases h

/-- A store into BUF of bytes that fit goes on. -/
theorem storeBuf_next {b : Bytes} {s : State} (h : bufFits s.cfg b.length = true) : storeBuf b s = .next (s.setBuf b) :=
  if_pos h

/-- A store into BUF keeps the form of BUF. -/
theorem storeBuf_keeps_wf {b : Bytes} {s t : State} (h : storeBuf b s = .next t) : Memory.wf t.cfg t.buf = true := by
  obtain ⟨hf, rfl⟩ := storeBuf_eq_next h
  exact hf

/-- An empty BUF has the form. -/
@[simp] theorem memory_wf_nil (cfg : Config) : Memory.wf cfg [] = true := by
  rw [Memory.wf, bufFits]
  cases cfg.bufMax <;> simp

theorem reset_memory_wf : Memory.wf State.reset.cfg State.reset.buf = true := memory_wf_nil _

/-- The state after a flush: BUF empty, one message, one token consumed. -/
def State.flushed (s : State) : State := (s.setBuf []).emit (.message (classify s.cfg s.buf))

/-- A flush always goes on, to that state. -/
@[simp] theorem flush_eq (s : State) : flush s = .next s.flushed := rfl

/-- Clearing BUF gives the form. -/
theorem clearBuf_keeps_wf (s : State) : Memory.wf (clearBuf s).cfg (clearBuf s).buf = true := memory_wf_nil _

/-- A flush leaves BUF empty, which has the form. -/
theorem flushed_wf (s : State) : Memory.wf s.flushed.cfg s.flushed.buf = true := memory_wf_nil _

theorem ifWellFormed_eq_next {f : Frame} {o : Out} {t : State} (h : ifWellFormed f o = .next t) :
    f.wf = true ∧ o = .next t := by
  rw [ifWellFormed] at h
  split at h
  · exact ⟨‹_›, h⟩
  · cases h

theorem exposing_eq_next {f : Frame} {o : Out} {t : State} (h : exposing f o = .next t) :
    ∃ s, o = .next s ∧ t = s.expose f := by
  obtain ⟨s, ho, ht⟩ := andThen_eq_next h
  exact ⟨s, ho, by cases ht; rfl⟩

/-- BUF after the update part of FEED (R131, R132). -/
def newBuf (f : Frame) (b : Bytes) : Bytes := if f.start = 1 then f.payload else b ++ f.payload

/-- The state after FEED of a frame, when it goes on. -/
def State.fed (f : Frame) (s : State) : State :=
  if f.flushCond then (s.setBuf (newBuf f s.buf)).flushed else (s.setBuf (newBuf f s.buf)).emit .nothing

/-- Each meaning is FEED (R130) specialised to its kind, as R136 to R139 say. -/
theorem exec_eq_feed (i : Instr) (s : State) : exec i s = feed i.toFrame s := by
  cases i <;> rfl

theorem ifWellFormed_of_wf {f : Frame} (h : f.wf = true) (o : Out) : ifWellFormed f o = o := if_pos h

theorem ifWellFormed_of_not_wf {f : Frame} (h : f.wf = false) (o : Out) :
    ifWellFormed f o = .refused (.frameMalformed f) := by
  simp [ifWellFormed, h]

/-- The update part of FEED is one store of the new BUF. -/
theorem updateBuf_eq (f : Frame) (s : State) : updateBuf f s = storeBuf (newBuf f s.buf) s := by
  simp only [updateBuf, newBuf, replaceBuf, appendBuf]
  split <;> rfl

/-- FEED of a well-formed frame whose new BUF fits goes on. -/
theorem feed_next {f : Frame} {s : State} (hw : f.wf = true) (hf : bufFits s.cfg (newBuf f s.buf).length = true) :
    feed f s = .next (s.fed f) := by
  rw [feed, ifWellFormed_of_wf hw, updateBuf_eq, storeBuf_next hf, andThen_next, State.fed]
  split <;> rfl

/-- FEED of a well-formed frame whose new BUF exceeds BUF_MAX faults. -/
theorem feed_overflow {f : Frame} {s : State} (hw : f.wf = true) (hf : bufFits s.cfg (newBuf f s.buf).length = false) :
    feed f s = .fault (.bufferOverflow (newBuf f s.buf).length) := by
  rw [feed, ifWellFormed_of_wf hw, updateBuf_eq, storeBuf, if_neg (by simp [hf]), andThen_fault]

/-- Everything an instruction can do: it is refused when ill formed, faults when the new BUF does not fit, else goes on. -/
theorem exec_cases (i : Instr) (s : State) :
    (i.wf = false ∧ exec i s = .refused (.frameMalformed i.toFrame)) ∨
    (i.wf = true ∧ bufFits s.cfg (newBuf i.toFrame s.buf).length = false ∧
      exec i s = .fault (.bufferOverflow (newBuf i.toFrame s.buf).length)) ∨
    (i.wf = true ∧ bufFits s.cfg (newBuf i.toFrame s.buf).length = true ∧ exec i s = .next (s.fed i.toFrame)) := by
  rw [exec_eq_feed]
  cases hw : i.wf
  · exact .inl ⟨rfl, ifWellFormed_of_not_wf hw _⟩
  cases hf : bufFits s.cfg (newBuf i.toFrame s.buf).length
  · exact .inr (.inl ⟨rfl, rfl, feed_overflow hw hf⟩)
  · exact .inr (.inr ⟨rfl, rfl, feed_next hw hf⟩)

/-- What an instruction did when it answered a next state. -/
theorem exec_eq_next {i : Instr} {s t : State} (h : exec i s = .next t) :
    i.wf = true ∧ bufFits s.cfg (newBuf i.toFrame s.buf).length = true ∧ t = s.fed i.toFrame := by
  rcases exec_cases i s with ⟨_, he⟩ | ⟨_, _, he⟩ | ⟨hw, hf, he⟩ <;> rw [he] at h <;> cases h
  exact ⟨hw, hf, rfl⟩

@[simp] theorem State.fed_trace (f : Frame) (s : State) : (s.fed f).trace = s.trace := by
  rw [State.fed]; split <;> rfl
@[simp] theorem State.fed_cfg (f : Frame) (s : State) : (s.fed f).cfg = s.cfg := by
  rw [State.fed]; split <;> rfl
@[simp] theorem State.fed_pc (f : Frame) (s : State) : (s.fed f).pc = s.pc + 1 := by
  rw [State.fed]; split <;> rfl
@[simp] theorem State.fed_cnt (f : Frame) (s : State) : (s.fed f).cnt = s.cnt := by
  rw [State.fed]; split <;> rfl

theorem State.fed_buf (f : Frame) (s : State) : (s.fed f).buf = if f.flushCond then [] else newBuf f s.buf := by
  rw [State.fed]; split <;> rfl

theorem State.fed_results (f : Frame) (s : State) :
    (s.fed f).results =
      ⟨none, if f.flushCond then .message (classify s.cfg (newBuf f s.buf)) else .nothing⟩ :: s.results := by
  rw [State.fed]; split <;> rfl

theorem flushCond_iff (f : Frame) :
    f.flushCond = true ↔ f.endBit = 1 ∨ (f.payload.length : Int) < (f.declaredLength : Int) - 2 := by
  simp [Frame.flushCond, Frame.short]

end Sys2Proof.Machine
end

