-- ==== Sys2Proof/Laws/Step.lean ====
section
/-! SUPPORT. Everything a step can do when it answers a next state, and what a placed token makes of it. -/

namespace Sys2Proof.Machine

/-- Every way an operation can go on, by token. -/
theorem runToken_eq_next {k : Token} {s t : State} (h : runToken k s = .next t) :
    (∃ raw e, k = .record raw ∧ decodeFrame raw = .error e ∧ t = s.emit (.error e)) ∨
    (∃ raw i u, k = .record raw ∧ decode raw = .ok i ∧ decodeFrame raw = .ok i.toFrame ∧ exec i s = .next u ∧
      t = u.expose i.toFrame) ∨
    (∃ f, k = .frame f ∧ f.wf = true ∧ exec f.toInstr s = .next t) ∨
    (k = .noFrame ∧ t = s.emit .nothing) ∨
    (k = .reset ∧ t = (s.setBuf []).emit .nothing) := by
  cases k with
  | record raw =>
    rw [runToken, opRecord] at h
    cases hd : decode raw with
    | error e =>
      rw [hd] at h
      cases h
      exact .inl ⟨raw, e, rfl, decode_eq_error.1 hd, rfl⟩
    | ok i =>
      rw [hd] at h
      obtain ⟨u, hu, rfl⟩ := exposing_eq_next h
      exact .inr (.inl ⟨raw, i, u, rfl, hd, decode_eq_ok hd, hu, rfl⟩)
  | frame f =>
    obtain ⟨hw, h⟩ := ifWellFormed_eq_next h
    exact .inr (.inr (.inl ⟨f, rfl, hw, h⟩))
  | noFrame =>
    cases h
    exact .inr (.inr (.inr (.inl ⟨rfl, rfl⟩)))
  | reset =>
    cases h
    exact .inr (.inr (.inr (.inr ⟨rfl, rfl⟩)))

theorem step_of_token {s : State} {k : Token} (h : s.token? = some k) : step s = runToken k s := by
  rw [step, stepToken, h]

theorem step_of_no_token {s : State} (h : s.token? = none) : step s = .next s := by
  rw [step, stepToken, h]

/-- A run of one step more is a step and then the run. -/
theorem core_run_succ (n : Nat) (s : State) :
    Sys2Proof.core.run (n + 1) s = andThen (step s) fun s' => Sys2Proof.core.run n s' := by
  have next : ∀ (M : Host.Core) (a b : M.State), M.step a = .next b → M.run (n + 1) a = M.run n b := by
    intro M a b h
    rw [Host.Core.run, h]
  have fault : ∀ (M : Host.Core) (a : M.State) (r : M.Fault), M.step a = .fault r → M.run (n + 1) a = .fault r := by
    intro M a r h
    rw [Host.Core.run, h]
  have refused : ∀ (M : Host.Core) (a : M.State) (r : M.Refusal),
      M.step a = .refused r → M.run (n + 1) a = .refused r := by
    intro M a r h
    rw [Host.Core.run, h]
  cases h : step s with
  | next s' => exact next Sys2Proof.core s s' h
  | fault r => exact fault Sys2Proof.core s r h
  | refused r => exact refused Sys2Proof.core s r h

end Sys2Proof.Machine
end

