-- ==== Sys2Proof/Laws/Environment.lean ====
section
/-! SUPPORT. What each piece of the environment can answer: the Transport, one turn of a channel, the detector's count. -/

namespace Sys2Proof.Machine

variable (t : Transport) (n : Nat) (b : Bytes)

@[simp] theorem Transport.takeUpTo_isOpen : (t.takeUpTo n).2.isOpen = t.isOpen := rfl
@[simp] theorem Transport.takeUpTo_written : (t.takeUpTo n).2.written = t.written := rfl
@[simp] theorem Transport.takeUpTo_reads : (t.takeUpTo n).2.reads = t.reads + 1 := rfl
@[simp] theorem Transport.takeUpTo_fst : (t.takeUpTo n).1 = t.arrive.queue.take n := rfl
@[simp] theorem Transport.takeUpTo_queue : (t.takeUpTo n).2.queue = t.arrive.queue.drop n := rfl
@[simp] theorem Transport.takeUpTo_arrivals : (t.takeUpTo n).2.arrivals = t.arrivals.tail := rfl

theorem Transport.read_open {t : Transport} (h : t.isOpen = true) (n : Nat) : t.read n = some (t.takeUpTo n) := if_pos h
theorem Transport.write_open {t : Transport} (h : t.isOpen = true) (b : Bytes) :
    t.write b = some { t with written := t.written ++ [b] } := if_pos h
theorem Transport.writeCommand_open {t : Transport} (h : t.isOpen = true) (cmd : Command) :
    t.writeCommand cmd = some { t with written := t.written ++ [outboundBytes cmd] } := Transport.write_open h _
theorem Transport.read_closed {t : Transport} (h : t.isOpen = false) (n : Nat) : t.read n = none := by
  simp [Transport.read, h]
theorem Transport.write_closed {t : Transport} (h : t.isOpen = false) (b : Bytes) : t.write b = none := by
  simp [Transport.write, h]
theorem Transport.writeCommand_closed {t : Transport} (h : t.isOpen = false) (cmd : Command) :
    t.writeCommand cmd = none := Transport.write_closed h _

/-- What an outbound message is made of: its ASCII text, then CR and LF. -/
theorem outboundBytes_eq (cmd : Command) : outboundBytes cmd = cmd.text.map (·.setWidth 8) ++ [0x0D, 0x0A] := rfl

/-- Every byte of an outbound message is an ASCII character. -/
theorem outboundBytes_ascii (cmd : Command) : ∀ x ∈ outboundBytes cmd, x.toNat ≤ 0x7F := by
  intro x hx
  rcases List.mem_append.1 hx with h | h
  · obtain ⟨c, -, rfl⟩ := List.mem_map.1 h
    have := c.isLt
    simp only [BitVec.toNat_setWidth]
    omega
  · simp only [lineEnd, List.mem_cons, List.not_mem_nil, or_false] at h
    rcases h with rfl | rfl <;> decide

/-- What was read, and that the Transport was open. -/
theorem Transport.read_eq_some {t t' : Transport} {n : Nat} {p : Bytes} (h : t.read n = some (p, t')) :
    t.isOpen = true ∧ p = (t.takeUpTo n).1 ∧ t' = (t.takeUpTo n).2 := by
  rw [Transport.read] at h
  split at h
  · cases h; exact ⟨‹_›, rfl, rfl⟩
  · cases h

/-- What was written, and that the Transport was open. -/
theorem Transport.write_eq_some {t t' : Transport} {b : Bytes} (h : t.write b = some t') :
    t.isOpen = true ∧ t' = { t with written := t.written ++ [b] } := by
  rw [Transport.write] at h
  split at h
  · cases h; exact ⟨‹_›, rfl⟩
  · cases h

theorem Transport.writeCommand_eq_some {t t' : Transport} {cmd : Command} (h : t.writeCommand cmd = some t') :
    t.isOpen = true ∧ t' = { t with written := t.written ++ [outboundBytes cmd] } := Transport.write_eq_some h

/-- A reader on a Transport that is not open answers none, whatever its strategy. -/
theorem readRecord_closed {t : Transport} (h : t.isOpen = false)
    (payload : Nat → Transport → Option (Option Bytes × Transport)) : readRecord payload t = none := by
  rw [readRecord, Transport.read_closed h]

/-- Presenting a token is its operation on the state that holds it. -/
theorem present_eq (k : Token) (s : State) : present k s = runToken k (s.withToken k) :=
  step_of_token (State.withToken_token s k)

/-- Everything a turn did when it was made: what the reader gave, and the operation on it. -/
theorem turn_eq_ok {reader : Transport → Option (Token × Transport)} {c c' : Channel} (h : turn reader c = .ok c') :
    ∃ k, reader c.transport = some (k, c'.transport) ∧ present k c.state = .next c'.state := by
  rw [turn] at h
  split at h
  · cases h
  · rename_i k t hr
    cases hp : present k c.state <;> rw [hp] at h <;> cases h
    exact ⟨k, hr, hp⟩

/-- The detector's count changes CNT only, by one exactly when the result is a blank message. -/
theorem countBlank_eq_next {s u : State} (h : countBlank s = .next u) :
    u = s.setCnt (s.cnt + if s.blank then 1 else 0) ∧ (s.blank = true → cntFits s.cfg (s.cnt + 1) = true) := by
  rw [countBlank] at h
  by_cases hb : s.blank = true
  · rw [if_pos hb] at h
    by_cases hc : cntFits s.cfg (s.cnt + 1) = true
    · rw [if_pos hc] at h
      cases h
      simp [hb, hc]
    · rw [if_neg hc] at h; cases h
  · rw [if_neg hb] at h
    cases h
    simp [hb, State.setCnt]

/-- Everything a turn of the detector did when it was made. -/
theorem detectorTurn_eq_ok {c c' : Channel} (h : detectorTurn c = .ok c') :
    ∃ k s, bestEffortRead c.transport = some (k, c'.transport) ∧ present k c.state = .next s ∧
      countBlank s = .next c'.state := by
  rw [detectorTurn] at h
  split at h
  · cases h
  · rename_i d ht
    obtain ⟨k, hr, hp⟩ := turn_eq_ok ht
    cases hc : countBlank d.state <;> rw [hc] at h <;> cases h
    exact ⟨k, d.state, hr, hp, hc⟩

end Sys2Proof.Machine
end

