-- ==== Sys2Proof/Laws/PerInstr.lean ====
section
/-! SUPPORT. One family of facts per instruction, about the instruction as syntax: the header word of its encoding has the
two bits the opcode table fixes (spec/30_encoding.md R76). -/

namespace Sys2Proof.Laws.KindBits

/-- The table's "match" value of an instruction's row, bits 15 and 14 of W. -/
def matchBits : Instr → Nat
  | .frameCont _ _ _ _ _ => 0x0000
  | .frameLast _ _ _ _ _ => 0x4000
  | .frameFirst _ _ _ _ _ => 0x8000
  | .frameSingle _ _ _ _ _ => 0xC000

/-- For a well-formed instruction, `W & 0xC000` of its encoding is the match value of its row. -/
def Statement (i : Instr) : Prop := i.wf = true → headerWord (encode i) / 0x4000 * 0x4000 = matchBits i

theorem kind_of_word (i : Instr) (hw : i.wf = true) :
    headerWord (encode i) / 0x4000 * 0x4000 = 0x8000 * i.toFrame.start + 0x4000 * i.toFrame.endBit := by
  have hf := (Frame.wf_iff i.toFrame).1 hw
  rw [headerWord, recByte_encode_zero, recByte_encode_one, headerByte0_toNat hw, headerByte1_toNat hw]
  omega

theorem frameCont (r c q l : Nat) (p : Bytes) : Statement (.frameCont r c q l p) := fun hw => by
  rw [kind_of_word _ hw]; simp [Instr.toFrame, matchBits]
theorem frameLast (r c q l : Nat) (p : Bytes) : Statement (.frameLast r c q l p) := fun hw => by
  rw [kind_of_word _ hw]; simp [Instr.toFrame, matchBits]
theorem frameFirst (r c q l : Nat) (p : Bytes) : Statement (.frameFirst r c q l p) := fun hw => by
  rw [kind_of_word _ hw]; simp [Instr.toFrame, matchBits]
theorem frameSingle (r c q l : Nat) (p : Bytes) : Statement (.frameSingle r c q l p) := fun hw => by
  rw [kind_of_word _ hw]; simp [Instr.toFrame, matchBits]

end Sys2Proof.Laws.KindBits
end

