-- ==== Sys2Proof/Tests/Slice0.lean ====
section
/-! SUPPORT. The model's own tests, their expected results taken from spec/95_test_vectors.md and the rules' examples, and
for each statement with hypotheses a witness that meets them. -/

namespace Sys2Proof.Tests

open Sys2Proof Sys2Proof.Machine

/-! ## WellFormed: one ill-formed term for each check -/

theorem test_wf_accepts_least : (Instr.frameCont 0 0 0 2 []).wf = true := by decide
theorem test_wf_accepts_greatest : (Instr.frameSingle 1 31 7 31 (List.replicate 29 0)).wf = true := by decide
theorem test_wf_refuses_start : (Frame.mk 2 0 0 0 0 2 []).wf = false := by decide
theorem test_wf_refuses_end : (Frame.mk 0 2 0 0 0 2 []).wf = false := by decide
theorem test_wf_refuses_reserved : (Instr.frameCont 2 0 0 2 []).wf = false := by decide
theorem test_wf_refuses_command : (Instr.frameCont 0 32 0 2 []).wf = false := by decide
theorem test_wf_refuses_sequence : (Instr.frameCont 0 0 8 2 []).wf = false := by decide
theorem test_wf_refuses_length_below_two : (Instr.frameCont 0 0 0 1 []).wf = false := by decide
theorem test_wf_refuses_length_above_31 : (Instr.frameCont 0 0 0 32 []).wf = false := by decide
theorem test_wf_refuses_long_payload : (Instr.frameCont 0 0 0 3 [0x43, 0x44]).wf = false := by decide

/-! ## Decoding: words written out from R71 and R72 (95_test_vectors.md 2.1 and 2.2) -/

theorem test_decode_first : decode [0x85, 0x04, 0x41, 0x42] = .ok (.frameFirst 0 5 0 4 [0x41, 0x42]) := by rfl
theorem test_decode_last : decode [0x45, 0x23, 0x43] = .ok (.frameLast 0 5 1 3 [0x43]) := by rfl
theorem test_decode_single : decode [0xC5, 0x04, 0x4F, 0x4B] = .ok (.frameSingle 0 5 0 4 [0x4F, 0x4B]) := by rfl
theorem test_decode_cont : decode [0x05, 0x23, 0x43] = .ok (.frameCont 0 5 1 3 [0x43]) := by rfl
theorem test_decode_reserved_alone : decode [0x20, 0x02] = .ok (.frameCont 1 0 0 2 []) := by rfl
theorem test_decode_command_bit4 : decode [0x10, 0x02] = .ok (.frameCont 0 16 0 2 []) := by rfl
theorem test_decode_sequence_bit7 : decode [0x00, 0x82] = .ok (.frameCont 0 0 4 2 []) := by rfl
theorem test_decode_all_ones :
    decode (0xFF :: 0xFF :: List.replicate 29 0) = .ok (.frameSingle 1 31 7 31 (List.replicate 29 0)) := by rfl
theorem test_decode_empty : decode [] = .error (.headerTooShort 0) := by rfl
theorem test_decode_one_byte : decode [0x85] = .error (.headerTooShort 1) := by rfl
theorem test_decode_length_zero : decode [0x85, 0x00] = .error (.lengthFieldInvalid 0) := by rfl
theorem test_decode_length_one : decode [0x85, 0x01] = .error (.lengthFieldInvalid 1) := by rfl
theorem test_decode_extra_byte : decode [0x85, 0x02, 0x99] = .ok (.frameFirst 0 5 0 2 []) := by rfl
theorem test_decode_mismatch : decode [0x85, 0x04, 0x41] = .error (.lengthMismatch 3 4) := by rfl
/-- R266: the text "OK" read as a header declares 11 bytes of FRAME.LAST, command_code 15, sequence 2. -/
theorem test_decode_text_ok :
    decode (0x4F :: 0x4B :: List.replicate 9 0x20) = .ok (.frameLast 0 15 2 11 (List.replicate 9 0x20)) := by rfl
theorem test_encode_first : encode (.frameFirst 0 5 0 4 [0x41, 0x42]) = [0x85, 0x04, 0x41, 0x42] := by decide
/-- Header bytes of program P5. -/
theorem test_encode_maxima : encode (.frameLast 1 31 1 2 []) = [0x7F, 0x22] := by decide
theorem test_table_word_first : decodeTableWord 16 0x8504 = some (.frameFirst 0 5 0 4 [0, 0]) := by decide
theorem test_table_word_illegal_length : decodeTableWord 16 0x0000 = none := by decide

/-! ## The four kinds: one step each on a small state (95_test_vectors.md 2.3) -/

/-- A state with this BUF and this trace, everything else as after reset. -/
def at_ (buf : Bytes) (trace : List Token) : State := { State.reset with buf := buf, trace := trace }

/-- BUF, CNT, pc and the newest result after an outcome that goes on. -/
def seen : Out → Option (Bytes × Nat × Nat × Option OpResult)
  | .next s => some (s.buf, s.cnt, s.pc, s.results.head?)
  | .fault _ => none
  | .refused _ => none

theorem test_first_replaces : seen (exec (.frameFirst 0 5 0 4 [0x41, 0x42]) (at_ [0x58, 0x59] [])) =
    some ([0x41, 0x42], 0, 1, some ⟨none, .nothing⟩) := by decide
theorem test_first_short : seen (exec (.frameFirst 0 5 0 6 [0x41, 0x42]) (at_ [0x58, 0x59] [])) =
    some ([], 0, 1, some ⟨none, .message (.text [0x41, 0x42])⟩) := by decide
theorem test_cont_appends : seen (exec (.frameCont 0 5 1 3 [0x43]) (at_ [0x41, 0x42] [])) =
    some ([0x41, 0x42, 0x43], 0, 1, some ⟨none, .nothing⟩) := by decide
theorem test_cont_short : seen (exec (.frameCont 0 5 1 4 [0x41]) (at_ [0x58, 0x59] [])) =
    some ([], 0, 1, some ⟨none, .message (.text [0x58, 0x59, 0x41])⟩) := by decide
theorem test_last_flushes : seen (exec (.frameLast 0 5 1 3 [0x43]) (at_ [0x41, 0x42] [])) =
    some ([], 0, 1, some ⟨none, .message (.text [0x41, 0x42, 0x43])⟩) := by decide
theorem test_last_empty_is_blank : seen (exec (.frameLast 0 0 0 2 []) (at_ [] [])) =
    some ([], 0, 1, some ⟨none, .message (.text [])⟩) := by decide
theorem test_single_drops_buffer : seen (exec (.frameSingle 0 5 0 4 [0x4F, 0x4B]) (at_ [0x58, 0x59] [])) =
    some ([], 0, 1, some ⟨none, .message (.text [0x4F, 0x4B])⟩) := by decide
/-- Program P3, last record: Raw is untrimmed and not blank. -/
theorem test_single_raw : seen (exec (.frameSingle 0 9 5 4 [0xFF, 0x0A]) (at_ [] [])) =
    some ([], 0, 1, some ⟨none, .message (.raw [0x66, 0x66, 0x30, 0x61])⟩) := by decide

/-! ## Tokens and the step -/

theorem test_step_exposes_frame : seen (step (at_ [0x41, 0x42] [.record [0x45, 0x23, 0x43]])) =
    some ([], 0, 1, some ⟨some ⟨0, 1, 0, 5, 1, 3, [0x43]⟩, .message (.text [0x41, 0x42, 0x43])⟩) := by decide
theorem test_step_error : seen (step (at_ [0x41, 0x42] [.record [0x05]])) =
    some ([0x41, 0x42], 0, 1, some ⟨none, .error (.headerTooShort 1)⟩) := by decide
theorem test_step_malformed :
    step (at_ [0x41, 0x42] [.frame ⟨0, 0, 0, 0, 0, 3, [0x43, 0x44]⟩]) =
      .refused (.frameMalformed ⟨0, 0, 0, 0, 0, 3, [0x43, 0x44]⟩) := by rfl
theorem test_step_short_frame : seen (step (at_ [] [.frame ⟨0, 0, 0, 0, 0, 4, [0x41]⟩])) =
    some ([], 0, 1, some ⟨none, .message (.text [0x41])⟩) := by decide
theorem test_step_reset : seen (step (at_ [0x41, 0x42] [.reset])) = some ([], 0, 1, some ⟨none, .nothing⟩) := by decide
theorem test_step_no_frame : seen (step (at_ [0x41, 0x42] [.noFrame])) =
    some ([0x41, 0x42], 0, 1, some ⟨none, .nothing⟩) := by decide
theorem test_step_fetch_word : seen (step (State.reset.withFetchWord 16 0xC502)) =
    some ([], 0, 1, some ⟨some ⟨1, 1, 0, 5, 0, 2, []⟩, .message (.text [])⟩) := by decide
/-- Program P5: under BUF_MAX 57 the second append of 29 bytes faults. -/
theorem test_overflow :
    exec (.frameCont 0 0 0 31 (List.replicate 29 0x41))
      { at_ (List.replicate 29 0x41) [] with cfg := { Config.standard with bufMax := some 57 } } =
      .fault (.bufferOverflow 58) := by rfl
/-- W6: a blank message is counted by the detector's step, and a non-blank one is not. -/
theorem test_detector_step_counts : seen (detectorStep (at_ [] [.record [0xC0, 0x04, 0x0D, 0x0A]])) =
    some ([], 1, 1, some ⟨some ⟨1, 1, 0, 0, 0, 4, [0x0D, 0x0A]⟩, .message (.text [])⟩) := by decide
theorem test_detector_step_not_blank :
    seen (detectorStep { at_ [] [.record [0xC0, 0x04, 0x4F, 0x4B]] with cnt := 1 }) =
      some ([], 1, 1, some ⟨some ⟨1, 1, 0, 0, 0, 4, [0x4F, 0x4B]⟩, .message (.text [0x4F, 0x4B])⟩) := by decide
theorem test_count_overflow :
    detectorStep { at_ [] [.record [0xC0, 0x02]] with cnt := 255, cfg := { Config.standard with cntWidth := some 8 } } =
      .fault (.cntOverflow 255) := by rfl
/-- Under the same CNT_WIDTH the block itself does not fault (D28). -/
theorem test_no_count_overflow_in_feed :
    seen (exec (.frameSingle 0 0 0 2 [])
      { at_ [] [] with cnt := 255, cfg := { Config.standard with cntWidth := some 8 } }) =
      some ([], 255, 1, some ⟨none, .message (.text [])⟩) := by decide

/-! ## Classification (95_test_vectors.md 2.4) -/

theorem test_classify_trims :
    classify Config.standard [0x0D, 0x0A, 0x4F, 0x4B, 0x0D, 0x0A] = .text [0x4F, 0x4B] := by decide
theorem test_classify_inner_space :
    classify Config.standard [0x20, 0x20, 0x41, 0x20, 0x42, 0x20, 0x20] = .text [0x41, 0x20, 0x42] := by decide
theorem test_classify_nul : classify Config.standard [0x00] = .text [0x00] := by decide
theorem test_classify_unit_separator : classify Config.standard [0x1C] = .text [0x1C] := by decide
theorem test_classify_raw :
    classify Config.standard [0x41, 0xFF, 0x0A] = .raw [0x34, 0x31, 0x66, 0x66, 0x30, 0x61] := by decide
theorem test_hex_other_format :
    hex ⟨true, [0x3C], [0x2D], [0x3E]⟩ [0xAB, 0x09] = [0x3C, 0x41, 0x42, 0x2D, 0x30, 0x39, 0x3E] := by decide

/-! ## Environment -/

/-- A transport with these bytes waiting and these arrivals to come. -/
def link (queue : Bytes) (arrivals : List Bytes) : Transport := ⟨true, queue, arrivals, [], 0⟩

theorem test_retrying_waits : retryingRead (link [0x85, 0x04, 0x41] [[], [], [0x42]]) =
    some (.record [0x85, 0x04, 0x41, 0x42], ⟨true, [], [], [], 3⟩) := by decide
theorem test_retrying_abandons : retryingRead (link [0x85, 0x04, 0x41] [[], [], [], [0x42]]) =
    some (.noFrame, ⟨true, [], [[0x42]], [], 3⟩) := by decide
/-- R258: the fragment is dropped, and what arrives later is next in the queue. -/
theorem test_best_effort_drops : bestEffortRead (link [0x85, 0x04, 0x41] [[], [], [0x42]]) =
    some (.noFrame, ⟨true, [], [[0x42]], [], 2⟩) := by decide
theorem test_best_effort_reads : bestEffortRead (link [0x85, 0x03, 0x41, 0x99] []) =
    some (.record [0x85, 0x03, 0x41], ⟨true, [0x99], [], [], 2⟩) := by decide
/-- R188: a header that declares fewer than 2 bytes is not handed over. -/
theorem test_reader_short_header : (retryingRead (link [0x85, 0x01, 0x41] [])).map Prod.fst = some .noFrame := by rfl
/-- R198: the stream ends when the Transport is closed, whatever waits in the queue. -/
theorem test_stream_closed : streamTurns 1 ⟨at_ [] [], (link [0xC0, 0x02] []).close⟩ =
    .stopped .transportUnavailable ⟨at_ [] [], (link [0xC0, 0x02] []).close⟩ := by decide
theorem test_text_of_line : textOfLine [0x41, 0xFF, 0x42] = [0x41, 0x42] := by decide

/-! ## Witnesses: each statement's hypotheses are met together -/

theorem witness_HeaderTooShort : ([0x85#8] : Bytes).length < 2 ∧ decode [0x85] = .error (.headerTooShort 1) := ⟨by decide, rfl⟩
theorem witness_LengthFieldInvalid : 2 ≤ ([0x85#8, 0x21#8] : Bytes).length ∧ 1 = (recByte [0x85, 0x21] 1).toNat % 32 ∧
    decode [0x85, 0x21] = .error (.lengthFieldInvalid 1) := ⟨by decide, by decide, rfl⟩
theorem witness_LengthMismatch : decode [0xC5, 0x1F] = .error (.lengthMismatch 2 31) ∧
    decode [0x85, 0x03] = .error (.lengthMismatch 2 3) := ⟨rfl, rfl⟩
theorem witness_DecodeReadsEveryField : 2 ≤ ([0xE0#8, 0xE2#8] : Bytes).length ∧ 2 ≤ (recByte [0xE0, 0xE2] 1).toNat % 32 ∧
    (recByte [0xE0, 0xE2] 1).toNat % 32 ≤ ([0xE0#8, 0xE2#8] : Bytes).length := by decide
theorem witness_TrailingBytes : decode [0x85, 0x03, 0x41] = .ok (.frameFirst 0 5 0 3 [0x41]) ∧
    decode ([0x85, 0x03, 0x41] ++ [0x42, 0x43]) = .ok (.frameFirst 0 5 0 3 [0x41]) := ⟨rfl, rfl⟩
theorem witness_RoundTrip : (Instr.frameLast 1 31 7 31 (List.replicate 29 0x41)).wf = true ∧
    (Instr.frameLast 1 31 7 31 (List.replicate 29 0x41)).toFrame.payload.length + 2 = 31 := by decide
theorem witness_ShortFrame : (Instr.frameCont 0 0 0 3 []).wf = true ∧
    (Instr.frameCont 0 0 0 3 []).toFrame.payload.length + 2 < 3 ∧
    decode (encode (.frameCont 0 0 0 3 [])) = .error (.lengthMismatch 2 3) := ⟨by decide, by decide, rfl⟩
theorem witness_EncodeDecode : decode [0xFF, 0xE3, 0x41, 0x42] = .ok (.frameSingle 1 31 7 3 [0x41]) ∧
    encode (.frameSingle 1 31 7 3 [0x41]) = [0xFF, 0xE3, 0x41] := ⟨rfl, by decide⟩
theorem witness_TableWord : decodeTableWord 16 0xFFFF = some (.frameSingle 1 31 7 31 (List.replicate 29 0)) ∧
    decodeTableWord 16 0x4002 = some (.frameLast 0 0 0 2 []) ∧ decodeTableWord 16 0x8001 = none := by decide

/-- A state with BUF_MAX 4. -/
def tight (buf : Bytes) : State := { at_ buf [] with cfg := { Config.standard with bufMax := some 4 } }

theorem witness_First_not_short : (Instr.frameFirst 0 0 0 6 [1, 2, 3, 4]).wf = true ∧
    bufFits (tight [9]).cfg ([1#8, 2#8, 3#8, 4#8] : Bytes).length = true ∧ ¬ ((4 : Int) < (6 : Int) - 2) := by decide
theorem witness_First_short : (Instr.frameFirst 0 0 0 3 []).wf = true ∧ bufFits (tight [9]).cfg ([] : Bytes).length = true ∧
    ((0 : Int) < (3 : Int) - 2) := by decide
theorem witness_Cont_not_short : (Instr.frameCont 0 0 0 3 [1]).wf = true ∧
    bufFits (tight [7, 8, 9]).cfg ((tight [7, 8, 9]).buf ++ [1#8]).length = true ∧ ¬ ((1 : Int) < (3 : Int) - 2) := by decide
theorem witness_Cont_short : (Instr.frameCont 0 0 0 4 [0x20]).wf = true ∧
    bufFits (tight [0x0D]).cfg ((tight [0x0D]).buf ++ [0x20#8]).length = true ∧ ((1 : Int) < (4 : Int) - 2) := by decide
theorem witness_Last : (Instr.frameLast 0 0 0 2 []).wf = true ∧
    bufFits (tight [1, 2, 3, 4]).cfg ((tight [1, 2, 3, 4]).buf ++ []).length = true := by decide
theorem witness_Single : (Instr.frameSingle 1 31 7 6 [0x20, 0x20, 0x20, 0x20]).wf = true ∧
    bufFits (tight [1]).cfg ([0x20#8, 0x20#8, 0x20#8, 0x20#8] : Bytes).length = true := by decide

/-- An instruction that goes on, with a flush and without. -/
theorem witness_exec_flush : ∃ t, exec (.frameLast 0 5 1 3 [0x43]) (at_ [0x41] []) = .next t ∧
    (Instr.frameLast 0 5 1 3 [0x43]).toFrame.endBit = 1 := ⟨_, rfl, rfl⟩
theorem witness_exec_no_flush : ∃ t, exec (.frameCont 0 5 1 3 [0x43]) (at_ [0x41] []) = .next t ∧
    ¬ ((Instr.frameCont 0 5 1 3 [0x43]).toFrame.endBit = 1 ∨ ((1 : Int) < (3 : Int) - 2)) ∧
    (Instr.frameCont 0 5 1 3 [0x43]).toFrame.start = 0 ∧
    (Instr.frameCont 0 5 1 3 [0x43]).toFrame.flushCond = false := ⟨_, rfl, by decide, rfl, by decide⟩
theorem witness_exec_start : ∃ t, (Instr.frameFirst 0 5 1 3 [0x43]).toFrame.start = 1 ∧
    exec (.frameFirst 0 5 1 3 [0x43]) (at_ [0x41] []) = .next t ∧
    (Instr.frameFirst 0 5 1 3 [0x43]).toFrame.flushCond = false := ⟨_, rfl, rfl, by decide⟩
theorem witness_exec_start_flush : ∃ t, (Instr.frameSingle 0 5 1 3 [0x43]).toFrame.start = 1 ∧
    exec (.frameSingle 0 5 1 3 [0x43]) (at_ [0x41] []) = .next t ∧
    (Instr.frameSingle 0 5 1 3 [0x43]).toFrame.flushCond = true := ⟨_, rfl, rfl, by decide⟩
/-- The greatest payload and the greatest BUF_MAX that is below it. -/
theorem witness_start_overflow :
    exec (.frameFirst 0 0 0 31 (List.replicate 29 0x41))
      { at_ [] [] with cfg := { Config.standard with bufMax := some 28 } } = .fault (.bufferOverflow 29) := by rfl
theorem witness_NotRead : (Instr.frameCont 0 0 0 3 [1]).wf = true ∧ (Instr.frameCont 1 31 7 3 [1]).wf = true ∧
    (Instr.frameLast 0 0 0 3 [1]).wf = true ∧ (Instr.frameLast 1 31 7 3 [1]).wf = true ∧
    (Instr.frameFirst 0 0 0 3 [1]).wf = true ∧ (Instr.frameFirst 1 31 7 3 [1]).wf = true ∧
    (Instr.frameSingle 0 0 0 3 [1]).wf = true ∧ (Instr.frameSingle 1 31 7 3 [1]).wf = true := by decide
theorem witness_NonStartOnEmpty : (at_ [] []).buf = [] ∧ (Instr.frameCont 0 0 0 2 []).wf = true ∧
    (Instr.frameLast 0 0 0 2 []).wf = true := by decide
theorem witness_Duplicated : (∃ t u, exec (.frameCont 0 0 0 3 [1]) (at_ [9] []) = .next t ∧
    exec (.frameCont 0 0 0 3 [1]) t = .next u ∧ ([1#8] : Bytes).length + 2 = 3) ∧
    (∃ t u, exec (.frameLast 0 0 0 3 [1]) (at_ [9] []) = .next t ∧ exec (.frameLast 0 0 0 3 [1]) t = .next u) :=
  ⟨⟨_, _, rfl, rfl, rfl⟩, ⟨_, _, rfl, rfl⟩⟩
theorem witness_Raw : Config.standard.hexFmt = HexFmt.standard ∧ ∃ x ∈ ([0x41#8, 0x80#8] : Bytes), 0x7F < x.toNat :=
  ⟨rfl, 0x80#8, by decide, by decide⟩
theorem witness_EmptyBuffer : ∃ t, (at_ [] []).buf = [] ∧ exec (.frameLast 0 0 0 2 []) (at_ [] []) = .next t := ⟨_, rfl, rfl⟩

theorem witness_step_record : (at_ [] [.record [0x85, 0x02]]).token? = some (.record [0x85, 0x02]) ∧
    decode [0x85, 0x02] = .ok (.frameFirst 0 5 0 2 []) ∧ ∃ t, step (at_ [] [.record [0x85, 0x02]]) = .next t :=
  ⟨rfl, rfl, _, rfl⟩
theorem witness_step_frame : (at_ [] [.frame ⟨0, 0, 0, 0, 0, 4, [0x41]⟩]).token? = some (.frame ⟨0, 0, 0, 0, 0, 4, [0x41]⟩) ∧
    (Frame.mk 0 0 0 0 0 4 [0x41]).wf = true := ⟨rfl, by decide⟩
theorem witness_step_table_word : decodeTableWord 16 0x4003 = some (.frameLast 0 0 0 3 [0]) := by decide
theorem witness_step_error : (at_ [] [.record [0x85]]).token? = some (.record [0x85]) ∧
    decode [0x85] = .error (.headerTooShort 1) := ⟨rfl, rfl⟩
theorem witness_step_malformed : (at_ [] [.frame ⟨0, 0, 0, 0, 0, 1, []⟩]).token? = some (.frame ⟨0, 0, 0, 0, 0, 1, []⟩) ∧
    (Frame.mk 0 0 0 0 0 1 []).wf = false := ⟨rfl, by decide⟩
theorem witness_step_no_frame_and_reset : (at_ [1] [.noFrame]).token? = some .noFrame ∧
    (at_ [1] [.reset]).token? = some .reset ∧ ∃ t u, step (at_ [1] [.noFrame]) = .next t ∧ step (at_ [1] [.reset]) = .next u :=
  ⟨rfl, rfl, _, _, rfl, rfl⟩
theorem witness_end_of_trace : State.reset.trace.length ≤ State.reset.pc := by decide
theorem witness_step_frame_rule : (at_ [] [.noFrame]).pc < (at_ [] [.noFrame]).trace.length ∧
    ∃ t, step (at_ [] [.noFrame]) = .next t := ⟨by decide, _, rfl⟩
theorem witness_depends_only : ∃ t1 t2, (at_ [1] []).buf = (at_ [1] [.reset]).buf ∧ (at_ [1] []).cfg = (at_ [1] [.reset]).cfg ∧
    runToken (.record [0x40, 0x02]) (at_ [1] []) = .next t1 ∧ runToken (.record [0x40, 0x02]) (at_ [1] [.reset]) = .next t2 :=
  ⟨_, _, rfl, rfl, rfl, rfl⟩
theorem witness_invariant : State.reset.Inv ∧ ∃ t, step State.reset = .next t :=
  ⟨⟨reset_memory_wf, le_refl _, rfl, fun _ h => by cases h⟩, _, rfl⟩
theorem witness_invariant_with_token : (State.reset.withFetchWord 16 0xC502).Inv ∧
    ∃ t, step (State.reset.withFetchWord 16 0xC502) = .next t :=
  ⟨⟨rfl, by decide, rfl, fun _ h => by cases h⟩, _, rfl⟩
theorem witness_run : ∃ t, Sys2Proof.core.run 2 (at_ [1] [.record [0x40, 0x02], .noFrame]) = .next t := ⟨_, rfl⟩
theorem witness_unbounded_run : (at_ [] [.record [0x85], .frame ⟨0, 0, 0, 0, 0, 4, []⟩]).cfg.bufMax = none ∧
    portFramesOk (at_ [] [.record [0x85], .frame ⟨0, 0, 0, 0, 0, 4, []⟩]).trace ∧
    (at_ [] [.record [0x85], .frame ⟨0, 0, 0, 0, 0, 4, []⟩]).pc ≤ 2 := by
  refine ⟨by decide, ?_, by decide⟩
  intro f h
  simp only [at_, List.mem_cons, reduceCtorEq, false_or, List.not_mem_nil, or_false, Token.frame.injEq] at h
  subst h
  decide

theorem witness_read : (link [0x85, 0x03] [[0x41]]).isOpen = true := rfl
theorem witness_closed : (link [0x85] []).close.isOpen = false := rfl
theorem witness_readers : ∃ t u, retryingRead (link [0x85, 0x03, 0x41] []) = some (.record [0x85, 0x03, 0x41], t) ∧
    bestEffortRead (link [0x85, 0x03, 0x41] []) = some (.record [0x85, 0x03, 0x41], u) := ⟨_, _, rfl, rfl⟩
theorem witness_waiting_record : (link [0x85, 0x02, 0x99] []).isOpen = true ∧
    (link [0x85, 0x02, 0x99] []).queue = [0x85, 0x02] ++ [0x99] ∧
    ([0x85#8, 0x02#8] : Bytes).length = (recByte [0x85, 0x02] 1).toNat % 32 := by decide
theorem witness_send : ∃ m c', send 1 ⟨[0x53]⟩ ⟨State.reset, link [0xC0, 0x03, 0x41] []⟩ = .message m c' := ⟨_, _, rfl⟩
/-- R82: the text "OK" as an outbound message is its characters, CR, LF; the empty text is the line end alone. -/
theorem test_outbound_line : outboundBytes ⟨[0x4F, 0x4B]⟩ = [0x4F, 0x4B, 0x0D, 0x0A] ∧ outboundBytes ⟨[]⟩ = [0x0D, 0x0A] := by
  decide
theorem witness_outbound : (link [] []).isOpen = true ∧
    ∃ u, runDetector Config.standard 0 [0] (link [] []) = .count 0 u ∧ u.written.length = 2 := ⟨rfl, _, rfl, rfl⟩
theorem witness_silent : (link [] []).isOpen = true ∧ (link [] []).queue = [] ∧ (link [] []).arrivals = [] := by decide
theorem witness_text : (link [0x4F, 0x4B, 0x0A] []).isOpen = true ∧ (∃ e ∈ [0, 3], 3 ≤ e) ∧ 2 < 3 :=
  ⟨rfl, ⟨3, by decide, by decide⟩, by decide⟩
/-- No line waits on an empty link, so that clause of the poll has its state whatever the free values are. Of the other
clause a state is fixed by them: any link whose waiting bytes begin with a line. -/
theorem witness_text_no_line : ([] : Bytes).take (Config.lineTaken []) = [] := List.take_nil
theorem witness_text_line (w : Bytes) (h : w ≠ []) (hl : Config.lineTaken w ≠ 0) : w.take (Config.lineTaken w) ≠ [] := by
  simp [h, hl]
theorem witness_detector_turn : (State.fresh Config.standard).Inv ∧ (State.fresh Config.standard).CountInv ∧
    ∃ c', detectorTurn ⟨State.fresh Config.standard, link [0xC0, 0x02] []⟩ = .ok c' ∧ c'.state.cnt = 1 :=
  ⟨⟨memory_wf_nil _, le_refl _, rfl, fun _ h => by cases h⟩, ⟨rfl, rfl⟩, _, rfl, rfl⟩
theorem witness_turn : ∃ c', turn bestEffortRead ⟨at_ [] [], link [0xC0, 0x02] []⟩ = .ok c' ∧ c'.state.cnt = 0 := ⟨_, rfl, rfl⟩
theorem witness_detector_step : (at_ [] [.record [0xC0, 0x02]]).pc < (at_ [] [.record [0xC0, 0x02]]).trace.length ∧
    ∃ t, detectorStep (at_ [] [.record [0xC0, 0x02]]) = .next t := ⟨by decide, _, rfl⟩
/-- Program P3 (W8): three blank and two non-blank messages give the count 3. -/
theorem witness_detector : ∃ t, runDetector Config.standard 8 [0, 1, 2, 3, 4, 5, 8]
    (link [0xC9, 0x04, 0x0D, 0x0A, 0xC9, 0x26, 0x31, 0x32, 0x2E, 0x35, 0xC9, 0x42, 0x89, 0x63, 0x20, 0x49, 0x84, 0x0D, 0x0A,
      0xC9, 0xA4, 0xFF, 0x0A] []) = .count 3 t := ⟨_, rfl⟩
theorem witness_deadline : (link [] []).isOpen = true ∧ unboundedCfg Config.standard = true ∧ ∃ e ∈ [0, 5], 5 ≤ e :=
  ⟨rfl, by decide, 5, by decide, by decide⟩
/-- An instance that stops leaves the other as it was. -/
theorem witness_channels :
    [Host.Outcome.next State.reset, (.next (at_ [] [.frame ⟨0, 0, 0, 0, 0, 1, []⟩]) : Out)][1]? =
      some (.next (at_ [] [.frame ⟨0, 0, 0, 0, 0, 1, []⟩])) ∧
    stepChannel 1 [.next State.reset, .next (at_ [] [.frame ⟨0, 0, 0, 0, 0, 1, []⟩])] =
      [.next State.reset, .refused (.frameMalformed ⟨0, 0, 0, 0, 0, 1, []⟩)] := ⟨rfl, rfl⟩

end Sys2Proof.Tests
end

