-- ==== Sys2Proof/Proofs/Decode.lean ====
section
/-! The header decoder: when each of its length errors is raised, and what it reads from a record that passes the checks.
Each error's `↔` comes from `decodeFrame_cases`, whose four cases exclude each other; the fields come from `decodedFrame`
by the quotients and remainders of `getStart_eq` to `getLen_eq`. -/

namespace Sys2Proof

/-- The checks pass, so `decode` answers the instruction that stands for the decoded Frame. -/
theorem exists_decode_eq_ok {raw : Bytes} (h1 : 2 ≤ raw.length) (h2 : 2 ≤ getLen (recByte raw 1))
    (h3 : getLen (recByte raw 1) ≤ raw.length) : ∃ i, decode raw = .ok i ∧ i.toFrame = decodedFrame raw := by
  have hd : decode raw = .ok (decodedFrame raw).toInstr := decode_of_decodeFrame (decodeFrame_ok h1 h2 h3)
  exact ⟨_, hd, (decodeFrame_eq_ok (decode_eq_ok hd)).1⟩

theorem decodeFrame_eq_headerTooShort_iff {raw : Bytes} {n : Nat} :
    decodeFrame raw = .error (.headerTooShort n) ↔ raw.length < 2 ∧ n = raw.length := by
  rcases decodeFrame_cases raw with ⟨_, hd⟩ | ⟨_, _, hd⟩ | ⟨_, _, _, hd⟩ | ⟨_, _, _, hd⟩
  case inl =>
    simp only [hd, Except.error.injEq, DecodeError.headerTooShort.injEq]
    omega
  all_goals
    simp only [hd, Except.error.injEq, reduceCtorEq, false_iff]
    omega

theorem decodeFrame_eq_lengthMismatch_iff {raw : Bytes} {n len : Nat} :
    decodeFrame raw = .error (.lengthMismatch n len) ↔
      n = raw.length ∧ len = getLen (recByte raw 1) ∧ 2 ≤ n ∧ 2 ≤ len ∧ n < len := by
  rcases decodeFrame_cases raw with ⟨_, hd⟩ | ⟨_, _, hd⟩ | ⟨_, _, _, hd⟩ | ⟨_, _, _, hd⟩
  case inr.inr.inl =>
    simp only [hd, Except.error.injEq, DecodeError.lengthMismatch.injEq]
    omega
  all_goals
    simp only [hd, Except.error.injEq, reduceCtorEq, false_iff]
    omega

/-- Settles O4: `decodedFrame` read field by field. -/
theorem decodeReadsEveryField : Obligations.DecodeReadsEveryField := by
  intro raw h1 h2 h3
  rw [← getLen_eq] at h2 h3
  obtain ⟨i, hd, hf⟩ := exists_decode_eq_ok h1 h2 h3
  have hstart : getStart (recByte raw 0) = (recByte raw 0).toNat / 128 % 2 := by
    have := (recByte raw 0).isLt
    rw [getStart_eq]; omega
  have hpayload : getPayload raw (getLen (recByte raw 1)) = (raw.drop 2).take ((recByte raw 1).toNat % 32 - 2) := by
    rw [getLen_eq]; rfl
  refine ⟨i, hd, ?_⟩
  rw [hf]
  exact ⟨hstart, getEnd_eq _, getReserved_eq _, getCmd_eq _, getSeq_eq _, getLen_eq _, hpayload⟩

/-- Settles O1, from the `↔` of the error with the record's own length as the number. -/
theorem headerTooShortExactlyBelowTwoBytes : Obligations.HeaderTooShortExactlyBelowTwoBytes := by
  intro raw
  constructor
  · intro h
    exact decode_eq_error.2 (decodeFrame_eq_headerTooShort_iff.2 ⟨h, rfl⟩)
  · intro n h
    exact decodeFrame_eq_headerTooShort_iff.1 (decode_eq_error.1 h)

/-- Settles O3, from the `↔` of the error with L read as a remainder (R107). -/
theorem lengthMismatchExactlyWhenRecordTooShort : Obligations.LengthMismatchExactlyWhenRecordTooShort := by
  intro raw n len
  rw [decode_eq_error, decodeFrame_eq_lengthMismatch_iff, getLen_eq]

end Sys2Proof
end

