-- ==== Sys2Proof/Proofs/Reassembly.lean ====
section
/-! The four frame kinds on BUF (spec/41_reassembly.md). `exec_eq_next` gives the one state an instruction can go on to;
`exec_eq_next_flush` and `exec_eq_next_noFlush` read BUF and the result from it in the two cases of the flush condition,
and each statement puts in the new BUF of its kind. Overflow is read off `exec_eq_bufferOverflow`. -/

namespace Sys2Proof.Machine

/-! ## The new BUF, the flush flag and MSG -/

theorem newBuf_of_start {f : Frame} (h : f.start = 1) (b : Bytes) : newBuf f b = f.payload := if_pos h

theorem newBuf_of_not_start {f : Frame} (h : f.start = 0) (b : Bytes) : newBuf f b = b ++ f.payload := by
  simp [newBuf, h]

/-- A kind with end 0 flushes exactly when it is short (R136, R137). -/
theorem flushCond_iff_of_endBit_zero {f : Frame} (h : f.endBit = 0) :
    f.flushCond = true ↔ (f.payload.length : Int) < (f.declaredLength : Int) - 2 := by
  simp [flushCond_iff, h]

theorem flushCond_of_endBit_one {f : Frame} (h : f.endBit = 1) : f.flushCond = true :=
  (flushCond_iff f).2 (.inl h)

@[simp] theorem OpResult.flushFlag_message (f : Option Frame) (m : Message) :
    (OpResult.mk f (.message m)).flushFlag = true := rfl

@[simp] theorem OpResult.flushFlag_nothing (f : Option Frame) : (OpResult.mk f .nothing).flushFlag = false := rfl

/-- MSG is the message of the newest result. -/
theorem State.msg?_of_results {t : State} {r : OpResult} {rs : List OpResult} (h : t.results = r :: rs) :
    t.msg? = r.reply.message? := by
  rw [State.msg?, h]; rfl

/-! ## How an instruction ends -/

/-- A well-formed instruction whose new BUF fits goes on. -/
theorem exec_next {i : Instr} {s : State} (hw : i.wf = true)
    (hf : bufFits s.cfg (newBuf i.toFrame s.buf).length = true) : exec i s = .next (s.fed i.toFrame) :=
  (exec_eq_feed i s).trans (feed_next hw hf)

/-- An instruction that goes on with a flush drains the new BUF into one message (R134, R145). -/
theorem exec_eq_next_flush {i : Instr} {s t : State} (h : exec i s = .next t) (hc : i.toFrame.flushCond = true) :
    t.buf = [] ∧ t.results = ⟨none, .message (classify s.cfg (newBuf i.toFrame s.buf))⟩ :: s.results := by
  obtain ⟨-, -, rfl⟩ := exec_eq_next h
  simp [State.fed_buf, State.fed_results, hc]

/-- An instruction that goes on without a flush keeps the new BUF and returns None (R135). -/
theorem exec_eq_next_noFlush {i : Instr} {s t : State} (h : exec i s = .next t) (hc : i.toFrame.flushCond = false) :
    t.buf = newBuf i.toFrame s.buf ∧ t.results = ⟨none, .nothing⟩ :: s.results := by
  obtain ⟨-, -, rfl⟩ := exec_eq_next h
  simp [State.fed_buf, State.fed_results, hc]

/-- A kind with end 0 that completes: it flushes if it is short and returns None if not. -/
theorem exec_completes_of_endBit_zero {i : Instr} {s : State} (hw : i.wf = true) (he : i.toFrame.endBit = 0)
    (hf : bufFits s.cfg (newBuf i.toFrame s.buf).length = true) :
    ∃ t, exec i s = .next t ∧
      if (i.toFrame.payload.length : Int) < (i.toFrame.declaredLength : Int) - 2 then
        t.buf = [] ∧ t.results = ⟨none, .message (classify s.cfg (newBuf i.toFrame s.buf))⟩ :: s.results
      else t.buf = newBuf i.toFrame s.buf ∧ t.results = ⟨none, .nothing⟩ :: s.results := by
  have hx := exec_next hw hf
  refine ⟨_, hx, ?_⟩
  split
  case isTrue hc => exact exec_eq_next_flush hx ((flushCond_iff_of_endBit_zero he).2 hc)
  case isFalse hc =>
    rw [← flushCond_iff_of_endBit_zero he, Bool.not_eq_true] at hc
    exact exec_eq_next_noFlush hx hc

theorem bufFits_eq_false {cfg : Config} {n : Nat} (h : bufFits cfg n = false) :
    ∃ m, cfg.bufMax = some m ∧ m < n := by
  cases hm : cfg.bufMax with
  | none => simp [bufFits, hm] at h
  | some m => exact ⟨m, rfl, by simpa [bufFits, hm] using h⟩

/-- An instruction overflows only when it is well formed and a finite BUF_MAX is below the length of the new BUF (R56). -/
theorem exec_eq_bufferOverflow {i : Instr} {s : State} {n : Nat} (h : exec i s = .fault (.bufferOverflow n)) :
    i.wf = true ∧ ∃ m, s.cfg.bufMax = some m ∧ m < (newBuf i.toFrame s.buf).length := by
  rcases exec_cases i s with ⟨_, he⟩ | ⟨hw, hf, _⟩ | ⟨_, _, he⟩
  case inr.inl => exact ⟨hw, bufFits_eq_false hf⟩
  all_goals rw [he] at h; cases h

/-! ## What FEED does not read -/

/-- FEED of a start frame does not read BUF (R131). -/
theorem feed_setBuf_of_start {f : Frame} (h : f.start = 1) (s : State) (b : Bytes) : feed f (s.setBuf b) = feed f s := by
  have hstore : storeBuf f.payload (s.setBuf b) = storeBuf f.payload s := rfl
  rw [feed, feed, updateBuf_eq, updateBuf_eq, newBuf_of_start h, newBuf_of_start h, hstore]

/-- FEED of a well-formed frame reads start, end, declared_length and the payload, and nothing else (R141). -/
theorem feed_congr {f g : Frame} (hf : f.wf = true) (hg : g.wf = true) (hs : f.start = g.start)
    (he : f.endBit = g.endBit) (hl : f.declaredLength = g.declaredLength) (hp : f.payload = g.payload) (s : State) :
    feed f s = feed g s := by
  have hflush : f.flushCond = g.flushCond := by simp only [Frame.flushCond, Frame.short, he, hl, hp]
  have hnew : newBuf f s.buf = newBuf g s.buf := by simp only [newBuf, hs, hp]
  rw [feed, feed, ifWellFormed_of_wf hf, ifWellFormed_of_wf hg, updateBuf_eq, updateBuf_eq, hflush, hnew]

theorem exec_congr {i j : Instr} (hi : i.wf = true) (hj : j.wf = true) (hs : i.toFrame.start = j.toFrame.start)
    (he : i.toFrame.endBit = j.toFrame.endBit) (hl : i.toFrame.declaredLength = j.toFrame.declaredLength)
    (hp : i.toFrame.payload = j.toFrame.payload) (s : State) : exec i s = exec j s := by
  rw [exec_eq_feed, exec_eq_feed, feed_congr hi hj hs he hl hp]

theorem payload_length_le_of_wf {i : Instr} (h : i.wf = true) : i.toFrame.payload.length ≤ payMax := by
  obtain ⟨-, -, -, -, -, -, hmax, hpay⟩ := (Frame.wf_iff i.toFrame).1 h
  simp only [payMax]
  omega

/-! ## The statements -/

/-- Settles O12: the new BUF of a start frame is its payload. -/
theorem firstReplacesAndFlushesOnlyIfShort : Obligations.FirstReplacesAndFlushesOnlyIfShort := by
  intro r c q l p s hw hf
  exact exec_completes_of_endBit_zero hw rfl hf

/-- Settles O13: the new BUF of a frame without start is BUF with the payload appended. -/
theorem contAppendsAndFlushesOnlyIfShort : Obligations.ContAppendsAndFlushesOnlyIfShort := by
  intro r c q l p s hw hf
  exact exec_completes_of_endBit_zero hw rfl hf

/-- Settles O14: end 1 is enough for the flush, whatever the length of the payload. -/
theorem lastAppendsAndFlushes : Obligations.LastAppendsAndFlushes := by
  intro r c q l p s hw hf
  have hx : exec (.frameLast r c q l p) s = .next (s.fed (Instr.frameLast r c q l p).toFrame) := exec_next hw hf
  exact ⟨_, hx, exec_eq_next_flush hx (flushCond_of_endBit_one rfl)⟩

/-- Settles O16: the result added is a message in the one case of the flush condition and None in the other. -/
theorem flushExactlyOnEndOrShort : Obligations.FlushExactlyOnEndOrShort := by
  intro i s t h
  simp only [← flushCond_iff]
  cases hc : i.toFrame.flushCond
  case true => exact ⟨_, (exec_eq_next_flush h hc).2, by simp⟩
  case false => exact ⟨_, (exec_eq_next_noFlush h hc).2, by simp⟩

/-- Settles O17, whose `if` is the new BUF written out. -/
theorem flushDrainsBufferAfterUpdate : Obligations.FlushDrainsBufferAfterUpdate := by
  intro i s t h hc
  exact exec_eq_next_flush h ((flushCond_iff i.toFrame).2 hc)

/-- Settles O18: the newest result is None, so MSG has no value. -/
theorem noFlushReturnsNothing : Obligations.NoFlushReturnsNothing := by
  intro i s t h hc
  rw [← flushCond_iff, Bool.not_eq_true] at hc
  obtain ⟨hbuf, hres⟩ := exec_eq_next_noFlush h hc
  exact ⟨hbuf, hres, State.msg?_of_results hres⟩

/-- Settles O19: the new BUF of a start frame is its payload, of at most 29 bytes, and no part of FEED reads the old BUF. -/
theorem startFrameForgetsBuffer : Obligations.StartFrameForgetsBuffer := by
  intro i s b hs
  have hnew : newBuf i.toFrame s.buf = i.toFrame.payload := newBuf_of_start hs s.buf
  refine ⟨?_, fun t h => ⟨?_, fun hc => ?_, fun hc => ?_⟩, fun n h => ?_⟩
  · rw [exec_eq_feed, exec_eq_feed]
    exact feed_setBuf_of_start hs s b
  · exact payload_length_le_of_wf (exec_eq_next h).1
  · rw [(exec_eq_next_noFlush h hc).1, hnew]
  · rw [State.msg?_of_results (exec_eq_next_flush h hc).2, hnew]; rfl
  · obtain ⟨hw, m, hm, hlt⟩ := exec_eq_bufferOverflow h
    rw [hnew] at hlt
    exact ⟨m, hm, hlt.trans_le (payload_length_le_of_wf hw)⟩

/-- Settles O20: the new BUF of a frame without start is BUF with the payload after it. -/
theorem nonStartFrameAppends : Obligations.NonStartFrameAppends := by
  intro i s hs
  have hnew : newBuf i.toFrame s.buf = s.buf ++ i.toFrame.payload := newBuf_of_not_start hs s.buf
  refine ⟨fun t h => ⟨fun hc => ?_, fun hc => ?_⟩, fun n h => ?_⟩
  · rw [(exec_eq_next_noFlush h hc).1, hnew]
    exact ⟨List.take_left, List.drop_left⟩
  · rw [State.msg?_of_results (exec_eq_next_flush h hc).2, hnew]; rfl
  · obtain ⟨-, m, hm, -⟩ := exec_eq_bufferOverflow h
    simp [hm]

/-- Settles O21: two frames of one kind with the same declared_length and payload agree in all that FEED reads. -/
theorem reservedCommandAndSequenceAreNotRead : Obligations.ReservedCommandAndSequenceAreNotRead := by
  intro r c q r' c' q' l p s
  refine ⟨?cont, ?last, ?first, ?single⟩
  all_goals
    intro h h'
    exact exec_congr h h' rfl rfl rfl rfl s

end Sys2Proof.Machine
end

