-- ==== Sys2Proof/Proofs/Classify.lean ====
section
/-! Blank messages (spec/42_classify.md R164). TRIM leaves nothing exactly when every byte is whitespace, and `blank` is
read off the two outcomes of CLASSIFY. -/

namespace Sys2Proof.Machine

/-- The bytes dropped from the front are whitespace too, so a buffer whose rest is all whitespace is all whitespace. -/
theorem trim_eq_nil_iff {ws b : Bytes} : trim ws b = [] ↔ ∀ x ∈ b, x ∈ ws := by
  have hend : trim ws b = [] ↔ ∀ x ∈ b.dropWhile (isWs ws), isWs ws x = true := List.rdropWhile_eq_nil_iff
  simp only [hend, ← isWs_iff ws]
  constructor
  · intro hrest x hx
    rw [← List.takeWhile_append_dropWhile (p := isWs ws) (l := b), List.mem_append] at hx
    exact hx.elim List.mem_takeWhile_imp (hrest x)
  · intro hall x hx
    exact hall x ((List.dropWhile_sublist _).subset hx)

theorem Message.blank_iff (m : Message) : m.blank = true ↔ m = .text [] := by
  cases m with
  | text t => simp [Message.blank]
  | raw h => simp [Message.blank]

theorem classify_eq_text_nil_iff {cfg : Config} {b : Bytes} :
    classify cfg b = .text [] ↔ (classify cfg b).kind = .text ∧ ∀ x ∈ b, x ∈ cfg.ws := by
  cases h : isText b
  case true => simp [classify_text h, Message.kind, trim_eq_nil_iff]
  case false => simp [classify_raw h, Message.kind]

/-- Settles O28: the blank message is Text(empty), which CLASSIFY gives exactly when TRIM leaves nothing. -/
theorem blankExactlyWhenAllWhitespace : Obligations.BlankExactlyWhenAllWhitespace := by
  intro cfg b
  rw [Message.blank_iff]
  exact ⟨classify_eq_text_nil_iff, id⟩

end Sys2Proof.Machine
end

