-- ==== Sys2Proof/Proofs/BlockAndChannels.lean ====
section
/-! The statements about the decoder's round trip, the frame kinds, CLASSIFY, the step and its runs, and the channels of the
environment, in that order. Each part first adds the lemmas about the model that its statements share. -/

namespace Sys2Proof

/-! ## DECODE undoes the encoder, and the encoder undoes DECODE -/

theorem getLen_encode {i : Instr} (h : i.wf = true) : getLen (recByte (encode i) 1) = i.toFrame.declaredLength := by
  obtain ⟨-, -, -, -, -, -, hmax, -⟩ := (Frame.wf_iff i.toFrame).1 h
  rw [getLen_eq, recByte_encode_one, headerByte1_toNat h]
  omega

theorem getPayload_encode {i : Instr} (hc : i.toFrame.payload.length + 2 = i.toFrame.declaredLength) :
    getPayload (encode i) i.toFrame.declaredLength = i.toFrame.payload := by
  rw [← hc]
  simp [getPayload, memRead, encode]

/-- The Frame read from the record of a well-formed payload-complete instruction: each field is a digit of its header byte
in the mixed radix of R75. -/
theorem decodedFrame_encode {i : Instr} (h : i.wf = true)
    (hc : i.toFrame.payload.length + 2 = i.toFrame.declaredLength) : decodedFrame (encode i) = i.toFrame := by
  obtain ⟨hs, he, hr, hcmd, hq, -, hmax, -⟩ := (Frame.wf_iff i.toFrame).1 h
  rw [decodedFrame, getLen_encode h, getPayload_encode hc, recByte_encode_zero, recByte_encode_one, getStart_eq, getEnd_eq,
    getReserved_eq, getCmd_eq, getSeq_eq, headerByte0_toNat h, headerByte1_toNat h]
  cases hf : i.toFrame
  simp only [hf] at hs he hr hcmd hq hmax
  simp only [Frame.mk.injEq, and_true]
  omega

/-- The two header bytes are made of the fields DECODE reads from them. -/
theorem headerByte0_decodedFrame (raw : Bytes) : headerByte0 (decodedFrame raw) = recByte raw 0 := by
  have := (recByte raw 0).isLt
  apply BitVec.eq_of_toNat_eq
  simp only [headerByte0, decodedFrame, getStart_eq, getEnd_eq, getReserved_eq, getCmd_eq, BitVec.toNat_ofNat]
  omega

theorem headerByte1_decodedFrame (raw : Bytes) : headerByte1 (decodedFrame raw) = recByte raw 1 := by
  have := (recByte raw 1).isLt
  apply BitVec.eq_of_toNat_eq
  simp only [headerByte1, decodedFrame, getSeq_eq, getLen_eq, BitVec.toNat_ofNat]
  omega

/-- A record of at least two bytes is its header and what follows. -/
theorem record_eq_header_append {raw : Bytes} (h : 2 ≤ raw.length) :
    raw = recByte raw 0 :: recByte raw 1 :: raw.drop 2 := by
  obtain ⟨a, b, rest, rfl⟩ : ∃ a b rest, raw = a :: b :: rest := by
    match raw, h with
    | a :: b :: rest, _ => exact ⟨a, b, rest, rfl⟩
  rfl

/-- What DECODE answered is `decodedFrame`, and its three checks passed. -/
theorem decode_eq_ok_checks {raw : Bytes} {i : Instr} (h : decode raw = .ok i) :
    i.toFrame = decodedFrame raw ∧ 2 ≤ raw.length ∧ 2 ≤ getLen (recByte raw 1) ∧ getLen (recByte raw 1) ≤ raw.length :=
  decodeFrame_eq_ok (decode_eq_ok h)

theorem decode_of_checks {raw : Bytes} {i : Instr} (hf : decodedFrame raw = i.toFrame) (h1 : 2 ≤ raw.length)
    (h2 : 2 ≤ getLen (recByte raw 1)) (h3 : getLen (recByte raw 1) ≤ raw.length) : decode raw = .ok i := by
  rw [decode_of_decodeFrame (decodeFrame_ok h1 h2 h3), hf, Instr.toInstr_toFrame]

/-- The Frame of a record that has all its bytes is well formed (R113): each field is a remainder below its bound. -/
theorem decodedFrame_wf {raw : Bytes} (h2 : 2 ≤ getLen (recByte raw 1)) (h3 : getLen (recByte raw 1) ≤ raw.length) :
    (decodedFrame raw).wf = true := by
  have hb0 := (recByte raw 0).isLt
  have hb1 := (recByte raw 1).isLt
  have hlen := getLen_lt (recByte raw 1)
  rw [Frame.wf_iff]
  simp only [decodedFrame, getStart_eq, getEnd_eq, getReserved_eq, getCmd_eq, getSeq_eq, getPayload_length h3]
  omega

theorem decodeFrame_eq_ok_wf {raw : Bytes} {f : Frame} (h : decodeFrame raw = .ok f) : f.wf = true := by
  obtain ⟨rfl, -, h2, h3⟩ := decodeFrame_eq_ok h
  exact decodedFrame_wf h2 h3

theorem decodeFrame_eq_ok_complete {raw : Bytes} {f : Frame} (h : decodeFrame raw = .ok f) :
    f.payloadComplete = true := by
  obtain ⟨rfl, -, h2, h3⟩ := decodeFrame_eq_ok h
  rw [Frame.payloadComplete_iff]
  simp only [decodedFrame, getPayload_length h3]
  omega

/-- Settles O7: the checks pass on the encoded record, and the Frame read from it is the instruction's. -/
theorem decodeEncodeRoundTrip : Obligations.DecodeEncodeRoundTrip := by
  intro i hw hc
  have hlen := getLen_encode hw
  have hsize := encode_length i
  exact decode_of_checks (decodedFrame_encode hw hc) (by omega) (by omega) (by omega)

/-- Settles O9: the header bytes are those of the record, and the payload is what follows them up to declared_length. -/
theorem encodeDecodeGivesBackTheRecord : Obligations.EncodeDecodeGivesBackTheRecord := by
  intro raw i h
  obtain ⟨hf, h1, h2, -⟩ := decode_eq_ok_checks h
  obtain ⟨k, hk⟩ := Nat.exists_eq_add_of_le' h2
  rw [encode, hf, headerByte0_decodedFrame, headerByte1_decodedFrame]
  simp only [decodedFrame, getPayload, memRead, hdrLen, hk]
  conv_rhs => rw [record_eq_header_append h1]
  simp

/-- Settles O5: the Frame DECODE answers has exactly the bytes its length field asks for. -/
theorem decodedFramesAreWellFormedAndComplete : Obligations.DecodedFramesAreWellFormedAndComplete := by
  intro raw i h
  have hd := decode_eq_ok h
  have hc := decodeFrame_eq_ok_complete hd
  exact ⟨decodeFrame_eq_ok_wf hd, (Frame.payloadComplete_iff _).1 hc, Frame.not_short_of_complete hc⟩

/-- Settles O8: the record of a short frame is well formed up to its length, which is below declared_length. -/
theorem shortFramesHaveNoRecord : Obligations.ShortFramesHaveNoRecord := by
  intro i hw hs
  rw [decode_eq_error, decodeFrame_eq_lengthMismatch_iff, getLen_encode hw, encode_length]
  omega

/-! ## Bytes beyond declared_length -/

theorem recByte_append {raw : Bytes} (extra : Bytes) {a : Nat} (h : a < raw.length) :
    recByte (raw ++ extra) a = recByte raw a := by
  simp [recByte, List.getD_eq_getElem?_getD, List.getElem?_append_left h]

theorem getPayload_append {raw : Bytes} (extra : Bytes) {len : Nat} (h1 : 2 ≤ raw.length) (h : len ≤ raw.length) :
    getPayload (raw ++ extra) len = getPayload raw len := by
  have hfit : len - 2 ≤ (raw.drop 2).length := by rw [List.length_drop]; omega
  rw [getPayload, getPayload, memRead, memRead, List.drop_append_of_le_length h1, List.take_append_of_le_length hfit]

/-- Settles O6: no byte at offset declared_length or above is read. -/
theorem trailingBytesAreIgnored : Obligations.TrailingBytesAreIgnored := by
  intro raw extra i h
  obtain ⟨hf, h1, h2, h3⟩ := decode_eq_ok_checks h
  have hb0 : recByte (raw ++ extra) 0 = recByte raw 0 := recByte_append extra (by omega)
  have hb1 : recByte (raw ++ extra) 1 = recByte raw 1 := recByte_append extra (by omega)
  have hsize : (raw ++ extra).length = raw.length + extra.length := List.length_append
  refine decode_of_checks ?_ (by omega) (by rwa [hb1]) (by rw [hb1]; omega)
  rw [hf, decodedFrame, decodedFrame, hb0, hb1, getPayload_append extra h1 h3]

theorem decodeFrame_eq_lengthFieldInvalid_iff {raw : Bytes} {len : Nat} :
    decodeFrame raw = .error (.lengthFieldInvalid len) ↔ 2 ≤ raw.length ∧ len = getLen (recByte raw 1) ∧ len < 2 := by
  rcases decodeFrame_cases raw with ⟨_, hd⟩ | ⟨_, _, hd⟩ | ⟨_, _, _, hd⟩ | ⟨_, _, _, hd⟩
  case inr.inl =>
    simp only [hd, Except.error.injEq, DecodeError.lengthFieldInvalid.injEq]
    omega
  all_goals
    simp only [hd, Except.error.injEq, reduceCtorEq, false_iff]
    omega

/-! ## The words of the opcode table -/

section TableWord
variable {w : Nat} (hw : w < 65536)
include hw

theorem tableByte_eq_zero (k : Nat) : tableByte 16 w k = 0 := by
  have hlt : w < 2 ^ (16 + 8 * k) := hw.trans_le (Nat.pow_le_pow_right (n := 2) (by decide) (by omega : 16 ≤ 16 + 8 * k))
  have hmod : w % 2 ^ 16 = w := Nat.mod_eq_of_lt hw
  rw [tableByte, hmod, Nat.div_eq_of_lt hlt]
  rfl

theorem tableRecord_byte0 : (recByte (tableRecord 16 w) 0).toNat = w / 256 := by
  simp only [recByte, tableRecord, List.getD_cons_zero, BitVec.toNat_ofNat]
  omega

omit hw in
theorem tableRecord_byte1 : (recByte (tableRecord 16 w) 1).toNat = w % 256 := by
  simp only [recByte, tableRecord, List.getD_cons_zero, List.getD_cons_succ, BitVec.toNat_ofNat]
  omega

omit hw in
theorem getLen_tableRecord : getLen (recByte (tableRecord 16 w) 1) = w % 32 := by
  rw [getLen_eq, tableRecord_byte1]
  omega

/-- The payload bytes of a 16-bit word are zeros, declared_length − 2 of them (log 10). -/
theorem tableRecord_drop : (tableRecord 16 w).drop 2 = List.replicate (w % 32 - 2) 0 := by
  have hlen : getLen (BitVec.ofNat 8 (w % 2 ^ 16)) = w % 32 := getLen_tableRecord
  have hbytes : tableByte 16 w = Function.const Nat 0 := funext (tableByte_eq_zero hw)
  simp only [tableRecord, List.drop_succ_cons, List.drop_zero, hlen, hbytes, List.map_const, List.length_take,
    List.length_range, payMax, hdrLen]
  congr 1
  omega

theorem tableRecord_length : (tableRecord 16 w).length = w % 32 - 2 + 2 := by
  have hdrop := congrArg List.length (tableRecord_drop hw)
  rw [List.length_drop, List.length_replicate] at hdrop
  have : 2 ≤ (tableRecord 16 w).length := by simp [tableRecord]
  omega

theorem decodedFrame_tableRecord : decodedFrame (tableRecord 16 w) =
    ⟨w / 32768, w / 16384 % 2, w / 8192 % 2, w / 256 % 32, w / 32 % 8, w % 32, List.replicate (w % 32 - 2) 0⟩ := by
  have hpay : getPayload (tableRecord 16 w) (w % 32) = List.replicate (w % 32 - 2) 0 := by
    rw [getPayload, memRead, tableRecord_drop hw, List.take_replicate, min_self]
  rw [decodedFrame, getLen_tableRecord, hpay, getStart_eq, getEnd_eq, getReserved_eq, getCmd_eq, getSeq_eq,
    tableRecord_byte0 hw, tableRecord_byte1]
  simp only [Frame.mk.injEq, and_true, Nat.div_div_eq_div_mul, Nat.reduceMul, true_and]
  omega

end TableWord

/-- Settles O10: the checks decide on declared_length alone, and bits 15 and 14 are the start and end of the Frame. -/
theorem everyTableWordSelectsItsKind : Obligations.EveryTableWordSelectsItsKind := by
  intro w hw
  have hsize := tableRecord_length hw
  have hlen : getLen (recByte (tableRecord 16 w) 1) = w % 32 := getLen_tableRecord
  rw [decodeTableWord]
  by_cases hl : w % 32 < 2
  · have hd : decode (tableRecord 16 w) = .error (.lengthFieldInvalid (w % 32)) :=
      decode_eq_error.2 (decodeFrame_eq_lengthFieldInvalid_iff.2 ⟨by omega, hlen.symm, hl⟩)
    rw [hd, if_pos hl]
  · have hd := decode_of_decodeFrame (decodeFrame_ok (raw := tableRecord 16 w) (by omega) (by omega) (by omega))
    rw [hd, if_neg hl, decodedFrame_tableRecord hw]
    have h4 : w / 16384 < 4 := by omega
    have h2 : w / 32768 = w / 16384 / 2 := by omega
    rw [h2]
    interval_cases w / 16384 <;> rfl

/-- Settles O2, from the `↔` of the error with L read as a remainder (R107). -/
theorem lengthFieldInvalidExactlyBelowTwo : Obligations.LengthFieldInvalidExactlyBelowTwo := by
  intro raw len
  rw [decode_eq_error, decodeFrame_eq_lengthFieldInvalid_iff, getLen_eq]

/-- Settles O11: DECODE evaluated on each record. -/
theorem spelledOutRecordsDecode : Obligations.SpelledOutRecordsDecode :=
  ⟨rfl, rfl, rfl, rfl, rfl, rfl⟩

end Sys2Proof

namespace Sys2Proof.Machine

/-! ## The frame kinds: when they stop, and what they leave alone -/

theorem exec_eq_refused_iff {i : Instr} {s : State} {r : Refusal} :
    exec i s = .refused r ↔ i.wf = false ∧ r = .frameMalformed i.toFrame := by
  rcases exec_cases i s with ⟨hw, he⟩ | ⟨hw, _, he⟩ | ⟨hw, _, he⟩
  · simp [he, hw, eq_comm]
  · simp [he, hw]
  · simp [he, hw]

theorem exec_eq_fault_iff {i : Instr} {s : State} {r : Fault} :
    exec i s = .fault r ↔ i.wf = true ∧ bufFits s.cfg (newBuf i.toFrame s.buf).length = false ∧
      r = .bufferOverflow (newBuf i.toFrame s.buf).length := by
  rcases exec_cases i s with ⟨hw, he⟩ | ⟨hw, hf, he⟩ | ⟨hw, hf, he⟩
  · simp [he, hw]
  · simp [he, hw, hf, eq_comm]
  · simp [he, hw, hf]

theorem exists_exec_eq_next_iff {i : Instr} {s : State} :
    (∃ t, exec i s = .next t) ↔ i.wf = true ∧ bufFits s.cfg (newBuf i.toFrame s.buf).length = true := by
  constructor
  · rintro ⟨t, h⟩
    obtain ⟨hw, hf, -⟩ := exec_eq_next h
    exact ⟨hw, hf⟩
  · rintro ⟨hw, hf⟩
    exact ⟨_, exec_next hw hf⟩

/-- FEED of a well-formed frame reads start only through the new BUF it gives. -/
theorem feed_eq_of_newBuf {f g : Frame} {s : State} (hf : f.wf = true) (hg : g.wf = true)
    (hflush : f.flushCond = g.flushCond) (hnew : newBuf f s.buf = newBuf g s.buf) : feed f s = feed g s := by
  rw [feed, feed, ifWellFormed_of_wf hf, ifWellFormed_of_wf hg, updateBuf_eq, updateBuf_eq, hflush, hnew]

/-- A frame without start and the same frame with it do the same on an empty BUF: the new BUF is the payload of either. -/
theorem feed_withStart_of_buf_nil {f : Frame} {s : State} (hb : s.buf = []) (h0 : f.start = 0) (hf : f.wf = true) :
    feed f s = feed { f with start := 1 } s := by
  have hg : ({ f with start := 1 } : Frame).wf = true := by
    obtain ⟨-, hrest⟩ := (Frame.wf_iff f).1 hf
    exact (Frame.wf_iff _).2 ⟨le_rfl, hrest⟩
  refine feed_eq_of_newBuf hf hg rfl ?_
  rw [newBuf_of_not_start h0, newBuf_of_start rfl, hb, List.nil_append]

/-- Settles O15: the new BUF of a start frame is its payload, and end 1 is enough for the flush. -/
theorem singleFlushesItsPayloadAlone : Obligations.SingleFlushesItsPayloadAlone := by
  intro r c q l p s hw hf
  have hx : exec (.frameSingle r c q l p) s = .next (s.fed (Instr.frameSingle r c q l p).toFrame) := exec_next hw hf
  exact ⟨_, hx, exec_eq_next_flush hx (flushCond_of_endBit_one rfl)⟩

/-- Settles O22: the fields of the one state an instruction goes on to. -/
theorem kindsLeaveEverythingElse : Obligations.KindsLeaveEverythingElse := by
  intro i s t h
  obtain ⟨-, -, rfl⟩ := exec_eq_next h
  refine ⟨State.fed_cfg _ s, State.fed_trace _ s, State.fed_pc _ s, State.fed_cnt _ s, _, State.fed_results _ s, ?_⟩
  intro e
  split <;> simp

/-- Settles O23, whose `b` is the new BUF written out. -/
theorem instructionStopsExactlyWhenSaid : Obligations.InstructionStopsExactlyWhenSaid :=
  fun _ _ => ⟨fun _ => exec_eq_refused_iff, fun _ => exec_eq_fault_iff, exists_exec_eq_next_iff⟩

/-- Settles O24: CONT and FIRST differ in start alone, and so do LAST and SINGLE. -/
theorem nonStartOnEmptyBufferOpensMessage : Obligations.NonStartOnEmptyBufferOpensMessage := by
  intro r c q l p s hb
  refine ⟨fun hw => ?_, fun hw => ?_⟩
  all_goals
    rw [exec_eq_feed, exec_eq_feed]
    exact feed_withStart_of_buf_nil hb rfl hw

/-- Settles O25: the second CONT appends to what the first left; the second LAST finds BUF empty. -/
theorem duplicatedFramesAreNotDetected : Obligations.DuplicatedFramesAreNotDetected := by
  intro r c q l p s t u
  refine ⟨fun h1 h2 hl => ?_, fun h1 h2 => ?_⟩
  · have hc : (Instr.frameCont r c q l p).toFrame.flushCond = false := by
      rw [← Bool.not_eq_true, flushCond_iff_of_endBit_zero rfl]
      simp only [Instr.toFrame]
      omega
    rw [(exec_eq_next_noFlush h2 hc).1, (exec_eq_next_noFlush h1 hc).1]
    rfl
  · have hc : (Instr.frameLast r c q l p).toFrame.flushCond = true := flushCond_of_endBit_one rfl
    have hcfg : t.cfg = s.cfg := by
      obtain ⟨-, -, rfl⟩ := exec_eq_next h1
      exact State.fed_cfg _ s
    rw [(exec_eq_next_flush h2 hc).2, (exec_eq_next_flush h1 hc).1, hcfg]
    rfl

end Sys2Proof.Machine

namespace Sys2Proof.Machine

/-! ## CLASSIFY: the text test, TRIM and HEX -/

theorem classify_kind_eq_text_iff {cfg : Config} {b : Bytes} : (classify cfg b).kind = .text ↔ isText b = true := by
  cases h : isText b
  case true => simp [classify_text h, Message.kind]
  case false => simp [classify_raw h, Message.kind]

/-- TRIM takes the whitespace off the beginning, and then off the end of what is left. -/
theorem trim_eq_rdropWhile (ws b : Bytes) : trim ws b = (b.dropWhile (isWs ws)).rdropWhile (isWs ws) := rfl

theorem head?_trim_not_mem {ws b : Bytes} {x : Byte} (h : (trim ws b).head? = some x) : x ∉ ws := by
  obtain ⟨suffix, hs⟩ : trim ws b <+: b.dropWhile (isWs ws) := List.rdropWhile_prefix _ _
  have hx : (b.dropWhile (isWs ws)).head? = some x := by rw [← hs, List.head?_append, h]; rfl
  have hnot := List.head?_dropWhile_not (isWs ws) b
  rw [hx] at hnot
  rw [← isWs_iff, hnot]
  exact Bool.false_ne_true

theorem getLast?_trim_not_mem {ws b : Bytes} {x : Byte} (h : (trim ws b).getLast? = some x) : x ∉ ws := by
  obtain ⟨hne, rfl⟩ := List.mem_getLast?_eq_getLast h
  rw [← isWs_iff]
  exact List.rdropWhile_last_not _ _ hne

theorem hexDigit_toNat {upper : Bool} {n : Nat} (h : n < 16) :
    (hexDigit upper n).toNat = if n < 10 then 0x30 + n else if upper then 0x37 + n else 0x57 + n := by
  rw [hexDigit]
  split_ifs
  all_goals
    rw [BitVec.toNat_ofNat]
    omega

theorem hexDigit_injective {upper : Bool} {m n : Nat} (hm : m < 16) (hn : n < 16)
    (h : hexDigit upper m = hexDigit upper n) : m = n := by
  have h' := congrArg BitVec.toNat h
  rw [hexDigit_toNat hm, hexDigit_toNat hn] at h'
  split_ifs at h' <;> omega

theorem hexByte_injective {upper : Bool} {x y : Byte} (h : hexByte upper x = hexByte upper y) : x = y := by
  have hx := x.isLt
  have hy := y.isLt
  obtain ⟨hhi, hlo, -⟩ : hexDigit upper (x.toNat / 16) = hexDigit upper (y.toNat / 16) ∧
      hexDigit upper (x.toNat % 16) = hexDigit upper (y.toNat % 16) ∧ True := by simpa [hexByte] using h
  have hhi := hexDigit_injective (by omega) (by omega) hhi
  have hlo := hexDigit_injective (by omega) (by omega) hlo
  exact BitVec.eq_of_toNat_eq (by omega)

theorem hexJoin_length (upper : Bool) (sep b : Bytes) :
    (hexJoin upper sep b).length = 2 * b.length + (b.length - 1) * sep.length := by
  induction b using hexJoin.induct with
  | case1 => simp [hexJoin]
  | case2 x => simp [hexJoin]
  | case3 x y rest ih =>
    simp only [hexJoin, List.length_append, hexByte_length, ih, List.length_cons, Nat.add_sub_cancel, Nat.succ_mul]
    omega

/-- A longer buffer has more digits and no fewer separators. -/
theorem length_eq_of_hexJoin_eq {upper : Bool} {sep a b : Bytes} (h : hexJoin upper sep a = hexJoin upper sep b) :
    a.length = b.length := by
  have hlen := congrArg List.length h
  rw [hexJoin_length, hexJoin_length] at hlen
  have seps : ∀ {m n : Nat}, m ≤ n → (m - 1) * sep.length ≤ (n - 1) * sep.length :=
    fun hmn => Nat.mul_le_mul_right _ (Nat.sub_le_sub_right hmn 1)
  rcases le_total a.length b.length with hle | hle
  · have := seps hle
    omega
  · have := seps hle
    omega

/-- The digits determine the bytes whatever stands between them: two digits at a time, the rest after the separator. -/
theorem hexJoin_injective {upper : Bool} {sep a b : Bytes} (h : hexJoin upper sep a = hexJoin upper sep b) : a = b := by
  have hlen := length_eq_of_hexJoin_eq h
  induction a using hexJoin.induct generalizing b with
  | case1 => exact (List.length_eq_zero_iff.1 hlen.symm).symm
  | case2 x =>
    obtain ⟨y, rfl⟩ := List.length_eq_one_iff.1 hlen.symm
    rw [hexByte_injective h]
  | case3 x y rest ih =>
    match b, hlen with
    | x' :: y' :: rest', hlen =>
      rw [hexJoin, hexJoin, List.append_assoc, List.append_assoc] at h
      obtain ⟨hx, hrest⟩ := List.append_inj h rfl
      rw [hexByte_injective hx, ih (List.append_cancel_left hrest) (Nat.succ.inj hlen)]

/-- Settles O26, from the text test. -/
theorem textExactlyWhenAscii : Obligations.TextExactlyWhenAscii := by
  intro cfg b
  rw [classify_kind_eq_text_iff, isText_iff]

/-- Settles O27: the parts taken off are the whitespace at the beginning of the buffer and that at the end of the rest. -/
theorem trimTakesWhitespaceOffBothEnds : Obligations.TrimTakesWhitespaceOffBothEnds := by
  intro ws b
  refine ⟨b.takeWhile (isWs ws), (b.dropWhile (isWs ws)).rtakeWhile (isWs ws), ?_, fun x hx => ?_, fun x hx => ?_,
    fun x => head?_trim_not_mem, fun x => getLast?_trim_not_mem⟩
  · rw [trim_eq_rdropWhile, List.append_assoc, List.rdropWhile_append_rtakeWhile, List.takeWhile_append_dropWhile]
  · exact (isWs_iff ws x).1 (List.mem_takeWhile_imp hx)
  · exact (isWs_iff ws x).1 (List.mem_rtakeWhile_imp hx)

/-- Settles O29: the strings before and after the digits are the same on both sides. -/
theorem hexIsInjective : Obligations.HexIsInjective := by
  intro fmt a b h
  rw [hex, hex] at h
  exact hexJoin_injective (List.append_cancel_left (List.append_cancel_right h))

/-! ### The default rendering -/

theorem hexJoin_no_separator (upper : Bool) (b : Bytes) : hexJoin upper [] b = b.flatMap (hexByte upper) := by
  induction b using hexJoin.induct with
  | case1 => rfl
  | case2 x => simp [hexJoin]
  | case3 x y rest ih => simp [hexJoin, ih]

theorem hex_standard (b : Bytes) : hex HexFmt.standard b = b.flatMap (hexByte false) := by
  simp [hex, HexFmt.standard, hexJoin_no_separator]

theorem flatMap_hexByte_length (upper : Bool) (b : Bytes) : (b.flatMap (hexByte upper)).length = 2 * b.length := by
  simp [List.length_flatMap, Nat.mul_comm]

/-- Byte k of the buffer stands at digits 2k and 2k + 1. -/
theorem flatMap_hexByte_get (upper : Bool) (b : Bytes) {k : Nat} (h : k < b.length) :
    (b.flatMap (hexByte upper))[2 * k]? = some (hexDigit upper ((b.getD k 0).toNat / 16)) ∧
    (b.flatMap (hexByte upper))[2 * k + 1]? = some (hexDigit upper ((b.getD k 0).toNat % 16)) := by
  induction b generalizing k with
  | nil => simp at h
  | cons x rest ih =>
    cases k with
    | zero => simp [hexByte]
    | succ k => simpa [hexByte, Nat.mul_add] using ih (by simpa using h)

theorem mem_flatMap_hexByte {upper : Bool} {b : Bytes} {x : Byte} (h : x ∈ b.flatMap (hexByte upper)) :
    ∃ n, n < 16 ∧ x = hexDigit upper n := by
  obtain ⟨y, -, hx⟩ := List.mem_flatMap.1 h
  have := y.isLt
  obtain rfl | rfl : x = hexDigit upper (y.toNat / 16) ∨ x = hexDigit upper (y.toNat % 16) := by simpa [hexByte] using hx
  · exact ⟨_, by omega, rfl⟩
  · exact ⟨_, by omega, rfl⟩

theorem isText_eq_false {b : Bytes} (h : ∃ x ∈ b, 0x7F < x.toNat) : isText b = false := by
  obtain ⟨x, hx, hlt⟩ := h
  rw [← Bool.not_eq_true, isText_iff]
  exact fun hall => absurd (hall x hx) (by omega)

/-- Settles O30: the default rendering is the digits of each byte in turn. -/
theorem rawIsTwoLowercaseDigitsPerByte : Obligations.RawIsTwoLowercaseDigitsPerByte := by
  intro cfg b hfmt hraw
  refine ⟨b.flatMap (hexByte false), ?_, flatMap_hexByte_length false b, fun k hk => ?_, fun x hx => ?_⟩
  · rw [classify_raw (isText_eq_false hraw), hfmt, hex_standard]
  · have := (b.getD k 0).isLt
    obtain ⟨hhi, hlo⟩ := flatMap_hexByte_get false b hk
    rw [hhi, hlo, Option.map_some, Option.map_some, hexDigit_toNat (by omega), hexDigit_toNat (by omega)]
    exact ⟨rfl, rfl⟩
  · obtain ⟨n, hn, rfl⟩ := mem_flatMap_hexByte hx
    rw [hexDigit_toNat hn, if_neg Bool.false_ne_true]
    split_ifs <;> omega

/-! ### The outcomes -/

theorem classify_nil (cfg : Config) : classify cfg [] = .text [] := rfl

/-- Settles O31: the new BUF of the LAST frame is empty. -/
theorem emptyBufferIsBlankText : Obligations.EmptyBufferIsBlankText := by
  refine ⟨classify_nil, fun r c q l s t hb h => ?_⟩
  have hnew : newBuf (Instr.frameLast r c q l []).toFrame s.buf = [] := by rw [newBuf_of_not_start rfl, hb]; rfl
  rw [(exec_eq_next_flush h (flushCond_of_endBit_one rfl)).2, hnew, classify_nil]

/-- Settles O32: by the text test, and for a text by what TRIM leaves. -/
theorem threeOutcomesOfClassify : Obligations.ThreeOutcomesOfClassify := by
  intro cfg b
  cases htext : isText b
  case false => exact .inr (.inr ⟨rfl, classify_raw htext, by rw [classify_raw htext]; rfl⟩)
  case true =>
    have hc := classify_text (cfg := cfg) htext
    by_cases hnil : trim cfg.ws b = []
    · rw [hnil] at hc
      exact .inr (.inl ⟨rfl, hnil, hc, (Message.blank_iff _).2 hc⟩)
    · exact .inl ⟨rfl, hnil, hc, by rw [hc, ← Bool.not_eq_true, Message.blank_iff]; simpa using hnil⟩

end Sys2Proof.Machine

namespace Sys2Proof.Machine

/-! ## One operation of the block, by the table of R148 -/

/-- The Frame an operation on this token exposes (R22, R142): that of a record that decodes, and no other. -/
def Token.exposed : Token → Option Frame
  | .record raw => (decodeFrame raw).toOption
  | .frame _ => none
  | .noFrame => none
  | .reset => none

/-- The state after the operation of a token, when it goes on: BUF and the result are those of the table. -/
def State.after (k : Token) (s : State) : State :=
  { s with
    buf := (tableStep s.cfg s.buf k).1
    pc := s.pc + 1
    results := ⟨k.exposed, (tableStep s.cfg s.buf k).2⟩ :: s.results }

section After
variable (k : Token) (s : State) (n : Nat)

@[simp] theorem State.after_buf : (s.after k).buf = (tableStep s.cfg s.buf k).1 := rfl
@[simp] theorem State.after_cnt : (s.after k).cnt = s.cnt := rfl
@[simp] theorem State.after_pc : (s.after k).pc = s.pc + 1 := rfl
@[simp] theorem State.after_trace : (s.after k).trace = s.trace := rfl
@[simp] theorem State.after_results :
    (s.after k).results = ⟨k.exposed, (tableStep s.cfg s.buf k).2⟩ :: s.results := rfl
@[simp] theorem State.after_cfg : (s.after k).cfg = s.cfg := rfl
@[simp] theorem State.after_setCnt : (s.setCnt n).after k = (s.after k).setCnt n := rfl

end After

/-- The row of the table for a frame, by the flush condition and the new BUF. -/
theorem tableFrame_eq (cfg : Config) (b : Bytes) (f : Frame) :
    tableFrame cfg b f =
      if f.flushCond then ([], .message (classify cfg (newBuf f b))) else (newBuf f b, .nothing) := by
  simp only [tableFrame, ← flushCond_iff]
  rfl

/-- FEED does what the table's row for the frame says (R148). -/
theorem State.fed_eq_after (f : Frame) (s : State) : s.fed f = s.after (.frame f) := by
  have hrow : tableStep s.cfg s.buf (.frame f) = _ := tableFrame_eq s.cfg s.buf f
  rw [State.fed, State.after, hrow]
  split <;> rfl

theorem tableStep_record_ok {cfg : Config} {b raw : Bytes} {f : Frame} (h : decodeFrame raw = .ok f) :
    tableStep cfg b (.record raw) = tableFrame cfg b f := by
  rw [tableStep, h]

theorem tableStep_record_error {cfg : Config} {b raw : Bytes} {e : DecodeError} (h : decodeFrame raw = .error e) :
    tableStep cfg b (.record raw) = (b, .error e) := by
  rw [tableStep, h]

theorem Token.exposed_record_ok {raw : Bytes} {f : Frame} (h : decodeFrame raw = .ok f) :
    (Token.record raw).exposed = some f := by
  rw [Token.exposed, h]; rfl

theorem Token.exposed_record_error {raw : Bytes} {e : DecodeError} (h : decodeFrame raw = .error e) :
    (Token.record raw).exposed = none := by
  rw [Token.exposed, h]; rfl

theorem State.fed_expose_eq_after {raw : Bytes} {f : Frame} (h : decodeFrame raw = .ok f) (s : State) :
    (s.fed f).expose f = s.after (.record raw) := by
  rw [State.fed_eq_after, State.after, State.after, tableStep_record_ok h, Token.exposed_record_ok h]
  rfl

theorem State.emit_error_eq_after {raw : Bytes} {e : DecodeError} (h : decodeFrame raw = .error e) (s : State) :
    s.emit (.error e) = s.after (.record raw) := by
  rw [State.after, tableStep_record_error h, Token.exposed_record_error h]
  rfl

/-- What an operation that goes on does: BUF and the result are the table's, one token is consumed, nothing else changes. -/
theorem runToken_eq_after {k : Token} {s t : State} (h : runToken k s = .next t) : t = s.after k := by
  rcases runToken_eq_next h with ⟨raw, e, rfl, hd, rfl⟩ | ⟨raw, i, u, rfl, -, hd, hx, rfl⟩ | ⟨f, rfl, hw, hx⟩ |
    ⟨rfl, rfl⟩ | ⟨rfl, rfl⟩
  case inl => exact State.emit_error_eq_after hd s
  case inr.inl =>
    obtain ⟨-, -, rfl⟩ := exec_eq_next hx
    exact State.fed_expose_eq_after hd s
  case inr.inr.inl =>
    obtain ⟨-, -, rfl⟩ := exec_eq_next hx
    obtain ⟨hs, he, -⟩ := (Frame.wf_iff f).1 hw
    rw [Frame.toFrame_toInstr hs he, State.fed_eq_after]
  case inr.inr.inr.inl => rfl
  case inr.inr.inr.inr => rfl

/-- A step with a token left is the operation of that token. -/
theorem step_eq_after {s t : State} {k : Token} (hk : s.token? = some k) (h : step s = .next t) : t = s.after k :=
  runToken_eq_after (step_of_token hk ▸ h)

theorem token?_of_pc_lt {s : State} (h : s.pc < s.trace.length) : ∃ k, s.token? = some k :=
  ⟨_, List.getElem?_eq_getElem h⟩

theorem pc_lt_of_token? {s : State} {k : Token} (h : s.token? = some k) : s.pc < s.trace.length :=
  (List.getElem?_eq_some_iff.1 h).1

theorem runToken_record_of_ok {raw : Bytes} {i : Instr} (h : decode raw = .ok i) (s : State) :
    runToken (.record raw) s = exposing i.toFrame (exec i s) := by
  rw [runToken, opRecord, h]

theorem runToken_record_of_error {raw : Bytes} {e : DecodeError} (h : decode raw = .error e) (s : State) :
    runToken (.record raw) s = .next (s.emit (.error e)) := by
  rw [runToken, opRecord, h]; rfl

theorem decode_tableRecord_of_decodeTableWord {nbits w : Nat} {i : Instr} (h : decodeTableWord nbits w = some i) :
    decode (tableRecord nbits w) = .ok i := by
  rw [decodeTableWord] at h
  split at h
  case h_1 j hd => rw [hd, Option.some.inj h]
  case h_2 => cases h

/-- Settles O33: the operation of each token, at the place where the step takes it. -/
theorem stepRunsTheDecodedInstruction : Obligations.StepRunsTheDecodedInstruction := by
  intro s
  refine ⟨fun raw i ht hd => ?_, fun f ht hw => ?_, fun w i hd => ?_⟩
  · rw [step_of_token ht, runToken_record_of_ok hd]
  · exact (step_of_token ht).trans (ifWellFormed_of_wf hw _)
  · have ht : (s.withFetchWord 16 w).token? = some (.record (tableRecord 16 w)) := State.withToken_token s _
    rw [step_of_token ht, runToken_record_of_ok (decode_tableRecord_of_decodeTableWord hd)]

/-- Settles O34: taking an error records it and nothing else. -/
theorem decodeErrorChangesNothing : Obligations.DecodeErrorChangesNothing := by
  intro s raw e ht hd
  exact ⟨_, (step_of_token ht).trans (runToken_record_of_error hd s), rfl, rfl, rfl, rfl, rfl, rfl⟩

/-- Settles O35: FEED's precondition at the frame port. -/
theorem malformedFrameIsRefused : Obligations.MalformedFrameIsRefused := by
  intro s f ht hw
  exact (step_of_token ht).trans (ifWellFormed_of_not_wf hw _)

/-- Settles O36: the two operations without a frame. -/
theorem noFrameAndResetTokens : Obligations.NoFrameAndResetTokens := by
  refine fun s => ⟨fun ht => ?_, fun ht => ?_⟩
  · exact ⟨s.emit .nothing, step_of_token ht, rfl, rfl, rfl, rfl, rfl, rfl⟩
  · exact ⟨(s.setBuf []).emit .nothing, step_of_token ht, rfl, rfl, rfl, rfl, rfl, rfl⟩

/-- Settles O37: there is no token at pc. -/
theorem endOfTraceWaits : Obligations.EndOfTraceWaits := by
  intro s h
  exact step_of_no_token (List.getElem?_eq_none h)

/-- Settles O38, from the state after the operation of the token at pc. -/
theorem stepFrameOnEveryToken : Obligations.StepFrameOnEveryToken := by
  intro s t hpc h
  obtain ⟨k, hk⟩ := token?_of_pc_lt hpc
  obtain rfl := step_eq_after hk h
  exact ⟨rfl, rfl, rfl, rfl, _, rfl⟩

/-- Settles O41: the table's row is given by the parameters, BUF and the token, and so is the exposed Frame. -/
theorem operationDependsOnlyOnBufAndToken : Obligations.OperationDependsOnlyOnBufAndToken := by
  intro k s1 s2 t1 t2 hb hc h1 h2
  obtain rfl := runToken_eq_after h1
  obtain rfl := runToken_eq_after h2
  simp [hb, hc]

/-- Settles O40: the decoded Frame is not short, so the flush condition is its end bit, bit 6 of byte0 (R103). -/
theorem recordFlushesExactlyOnEndBit : Obligations.RecordFlushesExactlyOnEndBit := by
  intro s t raw i ht hd h
  obtain rfl := step_eq_after ht h
  have hend : i.toFrame.endBit = (recByte raw 0).toNat / 64 % 2 := by
    rw [(decode_eq_ok_checks hd).1, decodedFrame, getEnd_eq]
  have hflush : i.toFrame.flushCond = true ↔ i.toFrame.endBit = 1 := by
    rw [Frame.flushCond, Frame.not_short_of_complete (decodeFrame_eq_ok_complete (decode_eq_ok hd)), Bool.or_false,
      decide_eq_true_eq]
  refine ⟨_, State.after_results _ s, ?_⟩
  rw [← hend, ← hflush, tableStep_record_ok (decode_eq_ok hd), tableFrame_eq]
  cases i.toFrame.flushCond <;> simp

/-! ### The caller's reads -/

theorem readFR_of_fr? {t : State} {f : Frame} (h : t.fr? = some f) (i : Fin 6) : readFR t i = .ok (f.x i) := by
  rw [readFR, h]

theorem readPAY_of_fr? {t : State} {f : Frame} (h : t.fr? = some f) : readPAY t = .ok f.payload := by
  rw [readPAY, State.pay?, h]; rfl

theorem reads_fault_of_fr?_none {t : State} (h : t.fr? = none) :
    (∀ i, readFR t i = .error .frNoValue) ∧ readPAY t = .error .payNoValue := by
  refine ⟨fun i => ?_, ?_⟩
  · rw [readFR, h]
  · rw [readPAY, State.pay?, h]; rfl

theorem State.after_fr? (k : Token) (s : State) : (s.after k).fr? = k.exposed := rfl

/-- Settles O42: FR after an operation is the Frame its token exposes. -/
theorem callerReadsFrameRegisters : Obligations.CallerReadsFrameRegisters := by
  intro s t h
  refine ⟨fun raw f ht hd => ?_, fun hnone => reads_fault_of_fr?_none ?_⟩
  · obtain rfl := step_eq_after ht h
    have hfr := (State.after_fr? _ s).trans (Token.exposed_record_ok hd)
    exact ⟨readFR_of_fr? hfr 0, readFR_of_fr? hfr 1, readFR_of_fr? hfr 2, readFR_of_fr? hfr 3, readFR_of_fr? hfr 4,
      readFR_of_fr? hfr 5, readPAY_of_fr? hfr⟩
  · rcases hnone with ⟨raw, e, ht, hd⟩ | ⟨f, ht⟩ | ht | ht
    all_goals obtain rfl := step_eq_after ht h
    · exact (State.after_fr? _ s).trans (Token.exposed_record_error hd)
    all_goals exact State.after_fr? _ s

/-! ### CNT -/

theorem exec_setCnt (i : Instr) (s : State) (n : Nat) :
    exec i (s.setCnt n) = andThen (exec i s) fun t => .next (t.setCnt n) := by
  rcases exec_cases i s with ⟨hw, he⟩ | ⟨hw, hf, he⟩ | ⟨hw, hf, he⟩
  · rw [he]
    exact exec_eq_refused_iff.2 ⟨hw, rfl⟩
  · rw [he]
    exact exec_eq_fault_iff.2 ⟨hw, hf, rfl⟩
  · rw [he, exec_next (s := s.setCnt n) hw hf, State.fed_eq_after, State.fed_eq_after, State.after_setCnt]
    rfl

/-- An operation neither reads nor writes CNT. -/
theorem runToken_setCnt (k : Token) (s : State) (n : Nat) :
    runToken k (s.setCnt n) = andThen (runToken k s) fun t => .next (t.setCnt n) := by
  cases k with
  | record raw =>
    cases hd : decode raw with
    | ok i =>
      rw [runToken_record_of_ok hd, runToken_record_of_ok hd, exec_setCnt]
      cases exec i s <;> rfl
    | error e =>
      rw [runToken_record_of_error hd, runToken_record_of_error hd]
      rfl
  | frame f =>
    simp only [runToken, opFrame, ifWellFormed]
    split
    · exact exec_setCnt _ s n
    · rfl
  | noFrame => rfl
  | reset => rfl

theorem step_setCnt (s : State) (n : Nat) : step (s.setCnt n) = andThen (step s) fun t => .next (t.setCnt n) := by
  cases hk : s.token? with
  | none => rw [step_of_no_token hk, step_of_no_token (s := s.setCnt n) hk]; rfl
  | some k => rw [step_of_token hk, step_of_token (s := s.setCnt n) hk, runToken_setCnt]

theorem onChannel_setCnt (t : Transport) (o : Out) (n : Nat) :
    onChannel t (andThen o fun s => .next (s.setCnt n)) =
      (onChannel t o).map fun d => ⟨d.state.setCnt n, d.transport⟩ := by
  cases o <;> rfl

theorem turn_setCnt (reader : Transport → Option (Token × Transport)) (c : Channel) (n : Nat) :
    turn reader ⟨c.state.setCnt n, c.transport⟩ = (turn reader c).map fun d => ⟨d.state.setCnt n, d.transport⟩ := by
  rw [turn, turn]
  cases reader c.transport with
  | none => rfl
  | some kt => exact (congrArg (onChannel kt.2) (step_setCnt (c.state.withToken kt.1) n)).trans (onChannel_setCnt _ _ n)

/-- The state after a token was presented: the token is placed, and its operation made. -/
theorem present_eq_after {k : Token} {s t : State} (h : present k s = .next t) : t = (s.withToken k).after k :=
  runToken_eq_after (present_eq k s ▸ h)

/-- The state after a turn of a channel's loop: the operation of the token its reader gave. -/
theorem turn_eq_after {reader : Transport → Option (Token × Transport)} {c c' : Channel} (h : turn reader c = .ok c') :
    ∃ k, reader c.transport = some (k, c'.transport) ∧ c'.state = (c.state.withToken k).after k := by
  obtain ⟨k, hr, hp⟩ := turn_eq_ok h
  exact ⟨k, hr, present_eq_after hp⟩

/-- Settles O39: the operation, the placing of its token and the reader leave CNT alone. -/
theorem blockNeitherReadsNorWritesCount : Obligations.BlockNeitherReadsNorWritesCount := by
  refine ⟨step_setCnt, turn_setCnt, fun reader c c' h => ?_⟩
  obtain ⟨k, -, hs⟩ := turn_eq_after h
  rw [hs]
  rfl

/-! ### The invariant -/

theorem decodeFrame_error_numbersOk {raw : Bytes} {e : DecodeError} (h : decodeFrame raw = .error e) :
    errorNumbersOk e := by
  have := getLen_lt (recByte raw 1)
  rcases decodeFrame_cases raw with ⟨_, hd⟩ | ⟨_, _, hd⟩ | ⟨_, _, _, hd⟩ | ⟨_, _, _, hd⟩
  all_goals
    rw [hd] at h
    cases h
  all_goals
    simp only [errorNumbersOk]
    omega

/-- A result of FEED is no error, and its message is what CLASSIFY makes of the new BUF. -/
theorem resultOk_tableFrame {cfg : Config} {b : Bytes} {f : Frame} {exposed : Option Frame}
    (h : ∀ g, exposed = some g → g.wf = true ∧ g.payloadComplete = true) :
    ResultOk cfg ⟨exposed, (tableFrame cfg b f).2⟩ := by
  rw [tableFrame_eq]
  cases f.flushCond
  case true => exact ⟨h, fun m hm => ⟨_, (Reply.message.inj hm).symm⟩, nofun⟩
  case false => exact ⟨h, nofun, nofun⟩

/-- The result the table gives for a token is as the invariant has it. -/
theorem resultOk_after (cfg : Config) (b : Bytes) (k : Token) : ResultOk cfg ⟨k.exposed, (tableStep cfg b k).2⟩ := by
  cases k with
  | record raw =>
    cases hd : decodeFrame raw with
    | ok f =>
      rw [tableStep_record_ok hd, Token.exposed_record_ok hd]
      refine resultOk_tableFrame fun g hg => ?_
      obtain rfl := Option.some.inj hg
      exact ⟨decodeFrame_eq_ok_wf hd, decodeFrame_eq_ok_complete hd⟩
    | error e =>
      rw [tableStep_record_error hd, Token.exposed_record_error hd]
      refine ⟨nofun, nofun, fun e' he => ?_⟩
      obtain rfl := Reply.error.inj he
      exact ⟨rfl, decodeFrame_error_numbersOk hd⟩
  | frame f => exact resultOk_tableFrame nofun
  | noFrame => exact ⟨nofun, nofun, nofun⟩
  | reset => exact ⟨nofun, nofun, nofun⟩

/-- An instruction that goes on leaves a BUF within BUF_MAX: empty after a flush, else the new BUF, which fits. -/
theorem exec_memory_wf {i : Instr} {s t : State} (h : exec i s = .next t) : Memory.wf t.cfg t.buf = true := by
  obtain ⟨-, hf, rfl⟩ := exec_eq_next h
  rw [State.fed_cfg, State.fed_buf]
  split
  · exact memory_wf_nil _
  · exact hf

theorem runToken_keeps_memory_wf {k : Token} {s t : State} (hs : Memory.wf s.cfg s.buf = true)
    (h : runToken k s = .next t) : Memory.wf t.cfg t.buf = true := by
  rcases runToken_eq_next h with ⟨raw, e, rfl, -, rfl⟩ | ⟨raw, i, u, rfl, -, -, hx, rfl⟩ | ⟨f, rfl, -, hx⟩ |
    ⟨rfl, rfl⟩ | ⟨rfl, rfl⟩
  case inl => exact hs
  case inr.inl =>
    rw [State.expose_cfg, State.expose_buf]
    exact exec_memory_wf hx
  case inr.inr.inl => exact exec_memory_wf hx
  case inr.inr.inr.inl => exact hs
  case inr.inr.inr.inr => exact memory_wf_nil _

/-- An operation keeps the invariant on a state with a token left. -/
theorem runToken_keeps_inv {k : Token} {s t : State} (hi : s.Inv) (hpc : s.pc < s.trace.length)
    (h : runToken k s = .next t) : t.Inv := by
  have hbuf := runToken_keeps_memory_wf hi.bufOk h
  obtain rfl := runToken_eq_after h
  refine ⟨hbuf, hpc, by simp [hi.oneEach], fun r hr => ?_⟩
  rcases List.mem_cons.1 hr with rfl | hr
  · exact resultOk_after s.cfg s.buf k
  · exact hi.resultsOk r hr

/-- Settles O44: the operation of the token at pc keeps the invariant, and with no token left nothing changes. -/
theorem stepKeepsTheMachineInvariant : Obligations.StepKeepsTheMachineInvariant := by
  intro s t hi h
  cases hk : s.token? with
  | some k => exact runToken_keeps_inv hi (pc_lt_of_token? hk) (step_of_token hk ▸ h)
  | none =>
    rw [step_of_no_token hk] at h
    cases h
    exact hi

theorem fresh_inv (cfg : Config) : (State.fresh cfg).Inv :=
  ⟨memory_wf_nil cfg, le_rfl, rfl, nofun⟩

/-- Settles O43: no operation has been made, so no result holds a Frame or a message. -/
theorem resetStateIsAsSaid : Obligations.ResetStateIsAsSaid := by
  obtain ⟨hfr, hpay⟩ := reads_fault_of_fr?_none (t := State.reset) rfl
  exact ⟨rfl, rfl, rfl, hfr, hpay, rfl, fresh_inv _⟩

/-! ### Runs -/

theorem tableRun_cons (cfg : Config) (b : Bytes) (k : Token) (ks : List Token) :
    tableRun cfg b (k :: ks) =
      ((tableRun cfg (tableStep cfg b k).1 ks).1, (tableStep cfg b k).2 :: (tableRun cfg (tableStep cfg b k).1 ks).2) := rfl

theorem drop_pc_of_token? {s : State} {k : Token} (h : s.token? = some k) :
    s.trace.drop s.pc = k :: s.trace.drop (s.pc + 1) := by
  obtain ⟨hlt, rfl⟩ := List.getElem?_eq_some_iff.1 h
  exact List.drop_eq_getElem_cons hlt

theorem drop_pc_of_no_token {s : State} (h : s.token? = none) : s.trace.drop s.pc = [] :=
  List.drop_eq_nil_of_le (List.getElem?_eq_none_iff.1 h)

/-- Settles O45, by induction on the number of steps: each step with a token left is one row of the table. -/
theorem runsAgreeWithTheTableMachine : Obligations.RunsAgreeWithTheTableMachine := by
  intro n
  induction n with
  | zero =>
    intro s t h
    cases h
    simp [tableRun]
  | succ n ih =>
    intro s t h
    rw [core_run_succ] at h
    obtain ⟨u, hu, hrun⟩ := andThen_eq_next h
    obtain ⟨hbuf, hres⟩ := ih u t hrun
    cases hk : s.token? with
    | none =>
      rw [step_of_no_token hk] at hu
      cases hu
      rw [drop_pc_of_no_token hk, List.take_nil] at hbuf hres ⊢
      exact ⟨hbuf, hres⟩
    | some k =>
      obtain rfl := step_eq_after hk hu
      rw [drop_pc_of_token? hk, List.take_succ_cons, tableRun_cons]
      exact ⟨hbuf, by simpa using hres⟩

theorem bufFits_of_unbounded {cfg : Config} (h : cfg.bufMax = none) (n : Nat) : bufFits cfg n = true := by
  rw [bufFits, h]

/-- With BUF_MAX unbounded an operation goes on, unless its token is a malformed Frame. -/
theorem runToken_next_of_unbounded {k : Token} {s : State} (hmax : s.cfg.bufMax = none)
    (hport : ∀ f, k = .frame f → f.wf = true) : runToken k s = .next (s.after k) := by
  have key : ∃ t, runToken k s = .next t := by
    have hexec : ∀ {i : Instr}, i.wf = true → exec i s = .next (s.fed i.toFrame) :=
      fun hw => exec_next hw (bufFits_of_unbounded hmax _)
    cases k with
    | record raw =>
      cases hd : decode raw with
      | ok i =>
        rw [runToken_record_of_ok hd, hexec (decodeFrame_eq_ok_wf (decode_eq_ok hd))]
        exact ⟨_, rfl⟩
      | error e => exact ⟨_, runToken_record_of_error hd s⟩
    | frame f =>
      have hw := hport f rfl
      exact ⟨_, (ifWellFormed_of_wf hw _).trans (hexec (Frame.toInstr_wf hw))⟩
    | noFrame => exact ⟨_, rfl⟩
    | reset => exact ⟨_, rfl⟩
  obtain ⟨t, ht⟩ := key
  rw [ht, runToken_eq_after ht]

/-- Settles O46, by induction on the number of tokens left. -/
theorem unboundedRunConsumesItsTrace : Obligations.UnboundedRunConsumesItsTrace := by
  intro s
  induction hn : s.trace.length - s.pc generalizing s with
  | zero =>
    intro _ _ hle
    exact ⟨s, rfl, decide_eq_true (by omega), rfl⟩
  | succ n ih =>
    intro hmax hport hle
    obtain ⟨k, hk⟩ := token?_of_pc_lt (s := s) (by omega)
    have hnext : step s = .next (s.after k) :=
      (step_of_token hk).trans (runToken_next_of_unbounded hmax fun f hf => hport f (hf ▸ List.mem_of_getElem? hk))
    rw [core_run_succ, hnext]
    exact ih (s.after k) (by simp; omega) hmax hport (by simp; omega)

end Sys2Proof.Machine

namespace Sys2Proof.Machine

/-! ## The Transport and the two Frame Readers -/

/-- Every byte that is on the link or still to arrive, in the order sent. -/
def Transport.pending (t : Transport) : Bytes := t.queue ++ t.arrivals.flatten

theorem Transport.arrive_pending (t : Transport) : t.arrive.queue ++ t.arrivals.tail.flatten = t.pending := by
  cases h : t.arrivals <;> simp [Transport.arrive, Transport.pending, h]

/-- Bytes that leave the queue leave it at its head. -/
theorem Transport.takeUpTo_pending (n : Nat) (t : Transport) :
    (t.takeUpTo n).1 ++ (t.takeUpTo n).2.pending = t.pending := by
  rw [← t.arrive_pending, Transport.pending, ← List.append_assoc]
  simp

/-- What a reader does to the Transport besides taking bytes: it stays open or closed, and nothing is written. -/
structure Transport.OnlyReads (t t' : Transport) : Prop where
  isOpen : t'.isOpen = t.isOpen
  written : t'.written = t.written

theorem Transport.OnlyReads.refl (t : Transport) : t.OnlyReads t := ⟨rfl, rfl⟩

theorem Transport.OnlyReads.trans {t t' t'' : Transport} (h : t.OnlyReads t') (h' : t'.OnlyReads t'') : t.OnlyReads t'' :=
  ⟨h'.isOpen.trans h.isOpen, h'.written.trans h.written⟩

theorem Transport.read_onlyReads {t t' : Transport} {n : Nat} {p : Bytes} (h : t.read n = some (p, t')) :
    t.OnlyReads t' := by
  obtain ⟨-, -, rfl⟩ := Transport.read_eq_some h
  exact ⟨rfl, rfl⟩

theorem Transport.read_length_le {t t' : Transport} {n : Nat} {p : Bytes} (h : t.read n = some (p, t')) :
    p.length ≤ n := by
  obtain ⟨-, rfl, -⟩ := Transport.read_eq_some h
  exact List.length_take_le _ _

theorem Transport.takeUpTo_waiting {t : Transport} {n : Nat} (h : n ≤ t.queue.length) :
    (t.takeUpTo n).1 = t.queue.take n :=
  List.take_append_of_le_length h

/-- Settles O47: the bytes read are the first of those pending. -/
theorem transportDeliversInOrder : Obligations.TransportDeliversInOrder := by
  intro n t ho
  refine ⟨_, _, Transport.read_open ho n, List.length_take_le _ _, ?_⟩
  rw [List.append_assoc]
  exact t.takeUpTo_pending n

/-! ### The two payload strategies, behind one interface (R199) -/

/-- What a Frame Reader uses of its payload strategy: on an open Transport it answers, having only read, and a payload it
gives has the length asked for; a payload that waits is given. -/
structure PayloadStrategy (payload : Nat → Transport → Option (Option Bytes × Transport)) : Prop where
  answers : ∀ {n t}, t.isOpen = true →
    ∃ r t', payload n t = some (r, t') ∧ t.OnlyReads t' ∧ ∀ p, r = some p → p.length = n
  waiting : ∀ {n t}, t.isOpen = true → n ≤ t.queue.length →
    ∃ t', payload n t = some (some (t.queue.take n), t') ∧ t.queue.take n ++ t'.pending = t.pending

theorem bestEffortPayload_open {n : Nat} {t : Transport} (ho : t.isOpen = true) :
    bestEffortPayload n t =
      some (if (t.takeUpTo n).1.length < n then none else some (t.takeUpTo n).1, (t.takeUpTo n).2) := by
  rw [bestEffortPayload, Transport.read_open ho]

theorem bestEffort_strategy : PayloadStrategy bestEffortPayload where
  answers {n t} ho := by
    have hr := Transport.read_open ho n
    have hle := Transport.read_length_le hr
    refine ⟨_, _, bestEffortPayload_open ho, Transport.read_onlyReads hr, fun p hp => ?_⟩
    split at hp
    case isTrue => cases hp
    case isFalse hge =>
      obtain rfl := Option.some.inj hp
      exact le_antisymm hle (not_lt.1 hge)
  waiting {n t} ho hn := by
    have htake := Transport.takeUpTo_waiting hn
    have hge : ¬ (t.takeUpTo n).1.length < n := by rw [htake, List.length_take]; omega
    refine ⟨(t.takeUpTo n).2, ?_, ?_⟩
    · rw [bestEffortPayload_open ho, if_neg hge, htake]
    · rw [← htake, t.takeUpTo_pending n]

/-- With nothing left to gather no read is made. -/
@[simp] theorem gather_none_needed (fuel : Nat) (acc : Bytes) (t : Transport) :
    gather fuel 0 acc t = some (some acc, t) := by
  rw [gather]

/-- One read of `gather` that gave bytes. -/
theorem gather_of_read {fuel need : Nat} {acc p : Bytes} {t t' : Transport} (hr : t.read (need + 1) = some (p, t'))
    (hp : p ≠ []) :
    gather (fuel + 1) (need + 1) acc t = gather fuel (need + 1 - p.length) (acc ++ p) t' := by
  obtain ⟨x, xs, rfl⟩ := List.exists_cons_of_ne_nil hp
  rw [gather, hr]

/-- What `gather` answers on an open Transport: it only reads, and what it gathered has the bytes it needed. -/
theorem gather_answers {fuel need : Nat} {acc : Bytes} {t : Transport} (ho : t.isOpen = true) :
    ∃ r t', gather fuel need acc t = some (r, t') ∧ t.OnlyReads t' ∧ ∀ p, r = some p → p.length = acc.length + need := by
  induction fuel generalizing need acc t with
  | zero =>
    cases need with
    | zero => exact ⟨_, _, gather_none_needed 0 acc t, .refl t, by simp⟩
    | succ need => exact ⟨none, t, by rw [gather], .refl t, nofun⟩
  | succ fuel ih =>
    cases need with
    | zero => exact ⟨_, _, gather_none_needed (fuel + 1) acc t, .refl t, by simp⟩
    | succ need =>
      obtain ⟨p, t1, hr⟩ : ∃ p t1, t.read (need + 1) = some (p, t1) := ⟨_, _, Transport.read_open ho _⟩
      have h1 := Transport.read_onlyReads hr
      have hle := Transport.read_length_le hr
      by_cases hp : p = []
      · subst hp
        exact ⟨none, t1, by rw [gather, hr], h1, nofun⟩
      · obtain ⟨r, t2, hg, h2, hlen⟩ := ih (need := need + 1 - p.length) (acc := acc ++ p) (h1.isOpen.trans ho)
        refine ⟨r, t2, (gather_of_read hr hp).trans hg, h1.trans h2, fun q hq => ?_⟩
        rw [hlen q hq, List.length_append]
        omega

theorem retrying_strategy : PayloadStrategy retryingPayload where
  answers {n t} ho := by simpa [retryingPayload] using gather_answers (fuel := n) (need := n) (acc := []) ho
  waiting {n t} ho hn := by
    cases n with
    | zero => exact ⟨t, gather_none_needed 0 [] t, rfl⟩
    | succ n =>
      have hr : t.read (n + 1) = some (t.queue.take (n + 1), (t.takeUpTo (n + 1)).2) := by
        rw [Transport.read_open ho, ← Transport.takeUpTo_waiting hn]
      have hlen : (t.queue.take (n + 1)).length = n + 1 := List.length_take_of_le hn
      refine ⟨(t.takeUpTo (n + 1)).2, ?_, ?_⟩
      · rw [retryingPayload, gather_of_read hr (List.ne_nil_of_length_eq_add_one hlen), hlen, Nat.sub_self,
          gather_none_needed, List.nil_append]
      · rw [← Transport.takeUpTo_waiting hn, t.takeUpTo_pending]

/-! ### One call of a Frame Reader -/

theorem dropHeader_spec (head : Bytes) (t : Transport) :
    (dropHeader head t).1 = .noFrame ∧ t.OnlyReads (dropHeader head t).2 := by
  rw [dropHeader]
  split <;> exact ⟨rfl, rfl, rfl⟩

theorem shortHeader_spec (head : Bytes) (t : Transport) :
    (shortHeader head t).1 = .noFrame ∧ t.OnlyReads (shortHeader head t).2 := ⟨rfl, rfl, rfl⟩

/-- A token a Frame Reader may give: NoFrame, or a record of exactly declared_length bytes by its own header (R188). -/
def WholeRecord (k : Token) : Prop :=
  k = .noFrame ∨ ∃ raw, k = .record raw ∧ 2 ≤ raw.length ∧ raw.length = getLen (recByte raw 1)

theorem wholeRecord_append {head p : Bytes} (hh : head.length = 2) (hl : 2 ≤ getLen (recByte head 1))
    (hp : p.length = getLen (recByte head 1) - 2) : WholeRecord (.record (head ++ p)) := by
  have hbyte : recByte (head ++ p) 1 = recByte head 1 := recByte_append p (by omega)
  refine .inr ⟨_, rfl, ?_, ?_⟩ <;> rw [List.length_append]
  · omega
  · rw [hbyte]; omega

section Reader
variable {payload : Nat → Transport → Option (Option Bytes × Transport)} (hs : PayloadStrategy payload) {t : Transport}
  (ho : t.isOpen = true)
include hs ho

/-- On an open Transport a reader answers, having only read, and gives a whole record or none. -/
theorem readRecord_answers : ∃ k t', readRecord payload t = some (k, t') ∧ t.OnlyReads t' ∧ WholeRecord k := by
  obtain ⟨head, t1, hr⟩ : ∃ head t1, t.read hdrLen = some (head, t1) := ⟨_, _, Transport.read_open ho _⟩
  have h1 := Transport.read_onlyReads hr
  have hle : head.length ≤ 2 := Transport.read_length_le hr
  rw [readRecord, hr]
  simp only
  split_ifs with hshort hlen
  · obtain ⟨hk, h2⟩ := dropHeader_spec head t1
    exact ⟨_, _, rfl, h1.trans h2, .inl hk⟩
  · obtain ⟨hk, h2⟩ := shortHeader_spec head t1
    exact ⟨_, _, rfl, h1.trans h2, .inl hk⟩
  · obtain ⟨r, t2, hp, h2, hsize⟩ := hs.answers (n := getLen (recByte head 1) - hdrLen) (h1.isOpen.trans ho)
    rw [hp]
    cases r with
    | none => exact ⟨_, _, rfl, h1.trans h2, .inl rfl⟩
    | some p =>
      simp only [hdrLen, lenMin, not_lt] at hshort hlen hsize
      exact ⟨_, _, rfl, h1.trans h2, wholeRecord_append (by omega) hlen (hsize p rfl)⟩

/-- A whole record at the head of the queue is handed over, and the bytes behind it stay pending. -/
theorem readRecord_waiting {raw rest : Bytes} (hq : t.queue = raw ++ rest) (h2 : 2 ≤ raw.length)
    (hlen : raw.length = getLen (recByte raw 1)) :
    ∃ t', readRecord payload t = some (.record raw, t') ∧ raw ++ t'.pending = t.pending := by
  have hsplit := List.take_append_drop 2 raw
  have hhead : (raw.take 2).length = 2 := List.length_take_of_le h2
  have hbyte : recByte raw 1 = recByte (raw.take 2) 1 := by
    conv_lhs => rw [← hsplit]
    exact recByte_append _ (by omega)
  have htake : (t.takeUpTo 2).1 = raw.take 2 := by
    rw [Transport.takeUpTo_waiting (by rw [hq, List.length_append]; omega), hq, List.take_append_of_le_length h2]
  have hqueue : (t.takeUpTo 2).2.queue = raw.drop 2 ++ (rest ++ t.arrivals.headD []) := by
    rw [Transport.takeUpTo_queue, Transport.arrive, hq, List.append_assoc, List.drop_append_of_le_length h2]
  have hn : getLen (recByte (raw.take 2) 1) - hdrLen = (raw.drop 2).length := by
    rw [← hbyte, ← hlen, List.length_drop]
  obtain ⟨t', hp, hpend⟩ := hs.waiting (n := (raw.drop 2).length) (t := (t.takeUpTo 2).2) ho
    (by rw [hqueue, List.length_append]; omega)
  rw [hqueue, List.take_left] at hp hpend
  have hr : t.read hdrLen = some (raw.take 2, (t.takeUpTo 2).2) := by rw [Transport.read_open ho, ← htake]
  refine ⟨t', ?_, ?_⟩
  · have hfull : ¬ (raw.take 2).length < hdrLen := by rw [hhead]; decide
    have hlegal : ¬ getLen (recByte (raw.take 2) 1) < lenMin := by
      rw [← hbyte, ← hlen, lenMin]
      omega
    rw [readRecord, hr]
    simp only [if_neg hfull, if_neg hlegal, hn, hp, hsplit]
  · conv_lhs => rw [← hsplit]
    rw [List.append_assoc, hpend, ← htake, t.takeUpTo_pending]

end Reader

/-- Whatever a reader answers, it only read, and it gives a whole record or none. -/
theorem readRecord_eq_some {payload : Nat → Transport → Option (Option Bytes × Transport)} (hs : PayloadStrategy payload)
    {t t' : Transport} {k : Token} (h : readRecord payload t = some (k, t')) : t.OnlyReads t' ∧ WholeRecord k := by
  cases ho : t.isOpen with
  | true =>
    obtain ⟨k', t'', h', hread, hk⟩ := readRecord_answers hs ho
    rw [h] at h'
    cases h'
    exact ⟨hread, hk⟩
  | false =>
    rw [readRecord_closed ho] at h
    cases h

/-- DECODE answers on a whole record, and its Frame has every byte its length field asks for. -/
theorem WholeRecord.decodes {k : Token} (h : WholeRecord k) :
    k = .noFrame ∨ ∃ raw i, k = .record raw ∧ 2 ≤ raw.length ∧ raw.length = (recByte raw 1).toNat % 32 ∧
      decode raw = .ok i ∧ i.toFrame.payloadComplete = true ∧ i.toFrame.short = false := by
  obtain rfl | ⟨raw, rfl, h2, hlen⟩ := h
  case inl => exact .inl rfl
  obtain ⟨i, hd, -⟩ := exists_decode_eq_ok h2 (hlen ▸ h2) hlen.ge
  have hc := decodeFrame_eq_ok_complete (decode_eq_ok hd)
  rw [getLen_eq] at hlen
  exact .inr ⟨raw, i, rfl, h2, hlen, hd, hc, Frame.not_short_of_complete hc⟩

/-- Settles O49, for both strategies behind the one reader. -/
theorem readersHandOverWholeRecords : Obligations.ReadersHandOverWholeRecords := by
  intro t
  refine ⟨fun ho => ?_, fun k t' h => ?_⟩
  · obtain ⟨k, t', h, -⟩ := readRecord_answers retrying_strategy ho
    obtain ⟨k', t'', h', -⟩ := readRecord_answers bestEffort_strategy ho
    exact ⟨⟨k, t', h⟩, ⟨k', t'', h'⟩⟩
  · rcases h with h | h
    · exact (readRecord_eq_some retrying_strategy h).2.decodes
    · exact (readRecord_eq_some bestEffort_strategy h).2.decodes

/-- Settles O50, for both strategies behind the one reader. -/
theorem waitingRecordIsHandedOver : Obligations.WaitingRecordIsHandedOver := by
  intro t raw rest ho hq h2 hlen
  rw [← getLen_eq] at hlen
  have handed : ∀ {payload}, PayloadStrategy payload → ∃ t', readRecord payload t = some (.record raw, t') ∧
      t'.queue ++ t'.arrivals.flatten = rest ++ t.arrivals.flatten := by
    intro payload hs
    obtain ⟨t', h, hpend⟩ := readRecord_waiting hs ho hq h2 hlen
    rw [Transport.pending, Transport.pending, hq, List.append_assoc] at hpend
    exact ⟨t', h, List.append_cancel_left hpend⟩
  exact ⟨handed retrying_strategy, handed bestEffort_strategy⟩

end Sys2Proof.Machine

namespace Sys2Proof.Machine

/-! ## The channels: a turn of the loop, `send`, the text channel, several channels -/

/-- A turn of a loop with a Frame Reader writes nothing and leaves the Transport open if it was. -/
theorem turn_onlyReads {payload : Nat → Transport → Option (Option Bytes × Transport)} (hs : PayloadStrategy payload)
    {c c' : Channel} (h : turn (readRecord payload) c = .ok c') : c.transport.OnlyReads c'.transport := by
  obtain ⟨k, hr, -⟩ := turn_eq_ok h
  exact (readRecord_eq_some hs hr).1

/-- A turn that was made adds one result. -/
theorem turn_results {reader : Transport → Option (Token × Transport)} {c c' : Channel} (h : turn reader c = .ok c') :
    ∃ r, c'.state.results = r :: c.state.results := by
  obtain ⟨k, -, hst⟩ := turn_eq_after h
  exact ⟨_, congrArg State.results hst⟩

theorem turn_of_present {reader : Transport → Option (Token × Transport)} {c : Channel} {k : Token} {t : Transport}
    {s : State} (hr : reader c.transport = some (k, t)) (hp : present k c.state = .next s) :
    turn reader c = .ok ⟨s, t⟩ := by
  rw [turn, hr]
  simp only [hp, onChannel]

theorem turn_closed {reader : Transport → Option (Token × Transport)} {c : Channel} (h : reader c.transport = none) :
    turn reader c = .error .transportUnavailable := by
  rw [turn, h]

/-! ### `send` -/

/-- The channel a call of `send` leaves. -/
def SendOutcome.channel : SendOutcome → Channel
  | .message _ c => c
  | .waiting c => c
  | .stopped _ c => c

theorem sendLoop_written (n : Nat) (c : Channel) :
    (sendLoop n c).channel.transport.written = c.transport.written := by
  induction n generalizing c with
  | zero => rfl
  | succ n ih =>
    rw [sendLoop]
    cases ht : turn retryingRead c with
    | error why => rfl
    | ok c' =>
      have hw : c'.transport.written = c.transport.written := (turn_onlyReads retrying_strategy ht).written
      simp only
      cases hm : c'.state.msg? with
      | none => exact (ih c').trans hw
      | some m => exact hw

/-- The loop ends at the first message: the results added before it hold none. -/
theorem sendLoop_eq_message {n : Nat} {c c' : Channel} {m : Message} (h : sendLoop n c = .message m c') :
    c'.state.msg? = some m ∧
      ∃ rs, c'.state.results = rs ++ c.state.results ∧ rs.filterMap (fun r => r.reply.message?) = [m] := by
  induction n generalizing c with
  | zero => cases h
  | succ n ih =>
    rw [sendLoop] at h
    cases ht : turn retryingRead c with
    | error why => rw [ht] at h; cases h
    | ok d =>
      obtain ⟨r, hr⟩ := turn_results ht
      have hmsg := State.msg?_of_results hr
      rw [ht] at h
      simp only at h
      cases hm : d.state.msg? with
      | some m' =>
        rw [hm] at h hmsg
        cases h
        exact ⟨hm, [r], hr, by simp [← hmsg]⟩
      | none =>
        rw [hm] at h hmsg
        obtain ⟨hlast, rs, hrs, hone⟩ := ih h
        refine ⟨hlast, rs ++ [r], by simp [hrs, hr], ?_⟩
        rw [List.filterMap_append, hone]
        simp [← hmsg]

theorem send_open {c : Channel} (ho : c.transport.isOpen = true) (turns : Nat) (cmd : Command) :
    send turns cmd c =
      sendLoop turns ⟨c.state, { c.transport with written := c.transport.written ++ [outboundBytes cmd] }⟩ := by
  rw [send, Transport.writeCommand_open ho]

theorem send_closed {c : Channel} (ho : c.transport.isOpen = false) (turns : Nat) (cmd : Command) :
    send turns cmd c = .stopped .transportUnavailable c := by
  rw [send, Transport.writeCommand_closed ho]

theorem send_written {c : Channel} (ho : c.transport.isOpen = true) (turns : Nat) (cmd : Command) :
    (send turns cmd c).channel.transport.written = c.transport.written ++ [outboundBytes cmd] := by
  rw [send_open ho, sendLoop_written]

/-- Settles O51: the command is written before the loop, and the loop ends at the first message. -/
theorem sendReturnsTheFirstMessage : Obligations.SendReturnsTheFirstMessage := by
  intro turns cmd c c' m h
  cases ho : c.transport.isOpen with
  | false =>
    rw [send_closed ho] at h
    cases h
  | true =>
    have hw := send_written ho turns cmd
    rw [h] at hw
    rw [send_open ho] at h
    obtain ⟨hlast, hres⟩ := sendLoop_eq_message h
    exact ⟨hlast, hw, hres⟩

/-- A device that never responds: the Transport is open, nothing waits and nothing will arrive. -/
structure Transport.Silent (t : Transport) : Prop where
  isOpen : t.isOpen = true
  queue : t.queue = []
  arrivals : t.arrivals = []

theorem dropHeader_nil (t : Transport) : dropHeader [] t = (.noFrame, t) := by
  rw [dropHeader]
  split <;> rfl

/-- A reader gets nothing from a silent device, which stays silent. -/
theorem readRecord_silent {t : Transport} (h : t.Silent)
    (payload : Nat → Transport → Option (Option Bytes × Transport)) :
    ∃ t', readRecord payload t = some (.noFrame, t') ∧ t'.Silent := by
  obtain ⟨ho, hq, ha⟩ := h
  have hempty : t.arrive.queue = [] := by simp [Transport.arrive, hq, ha]
  have hr : t.read hdrLen = some ([], (t.takeUpTo hdrLen).2) := by
    rw [Transport.read_open ho]
    simp [Transport.takeUpTo, hempty]
  have hrest : (t.takeUpTo hdrLen).2.Silent := ⟨ho, by simp [hempty], by simp [ha]⟩
  refine ⟨(t.takeUpTo hdrLen).2, ?_, hrest⟩
  have hshort : ([] : Bytes).length < hdrLen := by decide
  rw [readRecord, hr]
  simp only [if_pos hshort, dropHeader_nil]

theorem turn_noFrame {reader : Transport → Option (Token × Transport)} {c : Channel} {t : Transport}
    (h : reader c.transport = some (.noFrame, t)) :
    turn reader c = .ok ⟨(c.state.withToken .noFrame).emit .nothing, t⟩ :=
  turn_of_present h (present_eq _ _)

theorem sendLoop_silent (n : Nat) {c : Channel} (h : c.transport.Silent) :
    ∃ c', sendLoop n c = .waiting c' ∧ c'.state.buf = c.state.buf := by
  induction n generalizing c with
  | zero => exact ⟨c, rfl, rfl⟩
  | succ n ih =>
    obtain ⟨t, hr, ht⟩ : ∃ t, retryingRead c.transport = some (.noFrame, t) ∧ t.Silent := readRecord_silent h _
    obtain ⟨c', hloop, hbuf⟩ := ih (c := ⟨(c.state.withToken .noFrame).emit .nothing, t⟩) ht
    refine ⟨c', ?_, hbuf⟩
    rw [sendLoop, turn_noFrame hr]
    exact hloop

/-- Settles O52: every turn gives NoFrame. -/
theorem silentDeviceKeepsSendWaiting : Obligations.SilentDeviceKeepsSendWaiting := by
  intro turns cmd c ho hq ha
  rw [send_open ho]
  exact sendLoop_silent turns ⟨ho, hq, ha⟩

/-! ### The text channel -/

/-- The line a poll finds at the head of the link, empty when none waits. -/
def Transport.line (t : Transport) : Bytes := t.arrive.queue.take (Config.lineTaken t.arrive.queue)

/-- The link after a poll. -/
def Transport.polled (t : Transport) : Transport := (t.takeUpTo (Config.lineTaken t.arrive.queue)).2

theorem Transport.line_pending (t : Transport) : t.line ++ t.polled.pending = t.pending := t.takeUpTo_pending _

theorem Transport.polled_of_line_nil {t : Transport} (h : t.line = []) : t.polled = t.arrive := by
  have hdrop : t.arrive.queue.drop (Config.lineTaken t.arrive.queue) = t.arrive.queue := by
    conv_rhs => rw [← List.take_append_drop (Config.lineTaken t.arrive.queue) t.arrive.queue, ← Transport.line, h]
    rfl
  rw [Transport.polled, Transport.takeUpTo, hdrop]

theorem Transport.pollLine_open {t : Transport} (ho : t.isOpen = true) :
    t.pollLine =
      some (if t.line = [] then none else some (t.line.take (Config.lineKept t.arrive.queue)), t.polled) := by
  have hr : t.read (Config.lineTaken t.arrive.queue) = some (t.line, t.polled) := Transport.read_open ho _
  simp only [Transport.pollLine, hr]
  cases t.line <;> simp

theorem Transport.pollLine_closed {t : Transport} (ho : t.isOpen = false) : t.pollLine = none := by
  simp only [Transport.pollLine, Transport.read_closed ho]

section TextLoop
variable {wait elapsed : Nat} {clock : List Nat} {out : Bytes} {t : Transport}

theorem textLoop_over (h : wait ≤ elapsed) : textLoop wait (elapsed :: clock) out t = .text out t := by
  rw [textLoop, if_pos h]

theorem textLoop_closed (ho : t.isOpen = false) (h : elapsed < wait) :
    textLoop wait (elapsed :: clock) out t = .text Config.textSentinel t := by
  rw [textLoop, if_neg (not_le.2 h), Transport.pollLine_closed ho]

variable (ho : t.isOpen = true)
include ho

theorem textLoop_line (h : elapsed < wait) (hl : t.line ≠ []) :
    textLoop wait (elapsed :: clock) out t =
      textLoop wait clock
        (out ++ textOfLine (t.line.take (Config.lineKept t.arrive.queue)) ++ Config.textSeparator) t.polled := by
  rw [textLoop, if_neg (not_le.2 h), Transport.pollLine_open ho, if_neg hl]

theorem textLoop_noLine (h : elapsed < wait) (hl : t.line = []) :
    textLoop wait (elapsed :: clock) out t = textLoop wait clock out t.polled := by
  rw [textLoop, if_neg (not_le.2 h), Transport.pollLine_open ho, if_pos hl]

/-- The polling loop ends at the first sample that reaches the window, and its lines are the first bytes of the link. -/
theorem textLoop_ends (h : ∃ e ∈ clock, wait ≤ e) :
    ∃ (out' : Bytes) (t' : Transport) (lines : List (Bytes × Bytes)), textLoop wait clock out t = .text out' t' ∧
      t'.written = t.written ∧
      out' = out ++ lines.flatMap (fun l => textOfLine l.1 ++ Config.textSeparator) ∧
      t.pending = lines.flatMap (fun l => l.1 ++ l.2) ++ t'.pending := by
  induction clock generalizing out t with
  | nil => simp at h
  | cons e clock ih =>
    by_cases he : wait ≤ e
    case pos => exact ⟨out, t, [], textLoop_over he, rfl, by simp, by simp⟩
    case neg =>
      have hlt : e < wait := not_le.1 he
      have hrest : ∃ e ∈ clock, wait ≤ e := by simpa [he] using h
      by_cases hl : t.line = []
      · obtain ⟨out', t', lines, hloop, hw, hout, hpend⟩ := ih (out := out) (t := t.polled) ho hrest
        refine ⟨out', t', lines, (textLoop_noLine ho hlt hl).trans hloop, hw, hout, ?_⟩
        rw [← t.line_pending, hl, List.nil_append, hpend]
      · obtain ⟨out', t', lines, hloop, hw, hout, hpend⟩ := ih
          (out := out ++ textOfLine (t.line.take (Config.lineKept t.arrive.queue)) ++ Config.textSeparator)
          (t := t.polled) ho hrest
        refine ⟨out', t', (t.line.take (Config.lineKept t.arrive.queue), t.line.drop (Config.lineKept t.arrive.queue)) ::
          lines, (textLoop_line ho hlt hl).trans hloop, hw, by simp [hout], ?_⟩
        rw [← t.line_pending, hpend]
        simp

end TextLoop

theorem sendText_open {t : Transport} (ho : t.isOpen = true) (wait : Nat) (clock : List Nat) (cmd : Command) :
    sendText wait clock cmd t = textLoop wait clock [] { t with written := t.written ++ [outboundBytes cmd] } := by
  rw [sendText, Transport.writeCommand_open ho]

/-- Settles O53: the first clause is the command's write, the second one poll, the third the loop over the clock samples. -/
theorem textChannelTakesItsLinesFromTheLink : Obligations.TextChannelTakesItsLinesFromTheLink := by
  refine ⟨fun wait clock cmd t ho => sendText_open ho wait clock cmd, fun wait elapsed clock out t ho h => ⟨fun hl => ?_,
    fun hl => ?_⟩, fun wait clock cmd t ho h => ?_⟩
  · exact textLoop_line ho h hl
  · exact (textLoop_noLine ho h hl).trans (congrArg _ (Transport.polled_of_line_nil hl))
  · obtain ⟨out, t', lines, hloop, hrest⟩ := textLoop_ends (out := [])
      (t := { t with written := t.written ++ [outboundBytes cmd] }) ho h
    exact ⟨out, t', lines, (sendText_open ho wait clock cmd).trans hloop, hrest⟩

/-! ### Several channels -/

/-- Settles O59: `stepChannel` is `List.modify` at one index. -/
theorem channelsAreIndependent : Obligations.ChannelsAreIndependent := by
  intro k cs
  have own : ∀ o, cs[k]? = some o → (stepChannel k cs)[k]? = some (andThen o step) := by
    intro o h
    rw [stepChannel, List.getElem?_modify_eq, h]
    rfl
  refine ⟨List.length_modify _ _ _, fun j hj => ?_, fun s h => own _ h, fun r h => own _ h, fun r h => own _ h⟩
  rw [stepChannel, List.getElem?_modify_ne _ _ hj.symm]

end Sys2Proof.Machine

namespace Sys2Proof.Machine

/-! ## The Blank-Frame Detector -/

theorem State.blank_of_results {s : State} {r : OpResult} {rs : List OpResult} (h : s.results = r :: rs) :
    s.blank = r.blankFlag := by
  rw [State.blank, h]; rfl

/-- The count after an operation: CNT of the state before it, and one more when its result is a blank message. -/
theorem countBlank_after {k : Token} {s u : State} (h : countBlank (s.after k) = .next u) :
    ∃ r, (s.after k).results = r :: s.results ∧
      u = (s.after k).setCnt (s.cnt + if r.blankFlag = true then 1 else 0) ∧
      (r.blankFlag = true → cntFits s.cfg (s.cnt + 1) = true) := by
  obtain ⟨hu, hfits⟩ := countBlank_eq_next h
  rw [State.blank_of_results (State.after_results k s)] at hu hfits
  exact ⟨_, State.after_results k s, hu, hfits⟩

/-- Settles O55: the turn and the recorded step both end with the count of one operation's result. -/
theorem detectorCountsExactlyBlankMessages : Obligations.DetectorCountsExactlyBlankMessages := by
  refine ⟨fun c c' h => ?_, fun s t hpc h => ?_⟩
  · obtain ⟨k, s, hr, hp, hc⟩ := detectorTurn_eq_ok h
    have ht := turn_of_present hr hp
    obtain rfl := present_eq_after hp
    obtain ⟨r, hres, hu, -⟩ := countBlank_after hc
    exact ⟨r, _, ht, hres, congrArg (Channel.mk · c'.transport) hu⟩
  · obtain ⟨k, hk⟩ := token?_of_pc_lt hpc
    rw [detectorStep, hk] at h
    obtain ⟨u, hrun, hc⟩ := andThen_eq_next h
    obtain rfl := runToken_eq_after hrun
    obtain ⟨r, hres, hu, -⟩ := countBlank_after hc
    exact ⟨r, _, (step_of_token hk).trans hrun, hres, hu⟩

/-! ### The invariant of a detector run -/

theorem placeAt_length_eq (n : Nat) (k : Token) (tr : List Token) : (placeAt n k tr).length = max tr.length (n + 1) := by
  induction n generalizing tr with
  | zero => cases tr <;> simp [placeAt]
  | succ n ih => cases tr <;> simp [placeAt, ih]

theorem withToken_inv {s : State} (h : s.Inv) (k : Token) : (s.withToken k).Inv where
  bufOk := h.bufOk
  pcOk := by
    rw [State.withToken_pc, State.withToken_trace, placeAt_length_eq]
    omega
  oneEach := h.oneEach
  resultsOk := h.resultsOk

theorem setCnt_inv {s : State} (h : s.Inv) (n : Nat) : (s.setCnt n).Inv := ⟨h.bufOk, h.pcOk, h.oneEach, h.resultsOk⟩

theorem present_keeps_inv {k : Token} {s t : State} (hi : s.Inv) (h : present k s = .next t) : t.Inv :=
  runToken_keeps_inv (withToken_inv hi k) (pc_lt_of_token? (State.withToken_token s k)) (present_eq k s ▸ h)

theorem blankCount_cons (r : OpResult) (rs : List OpResult) :
    blankCount (r :: rs) = blankCount rs + if r.blankFlag = true then 1 else 0 := by
  rw [blankCount, blankCount, List.filter_cons]
  split <;> rfl

/-- The count keeps CNT the number of blank messages, within CNT_WIDTH, and never makes it less. -/
theorem countBlank_keeps_countInv {k : Token} {s u : State} (hi : s.CountInv) (h : countBlank (s.after k) = .next u) :
    u.CountInv ∧ s.cnt ≤ u.cnt := by
  obtain ⟨r, hres, rfl, hfits⟩ := countBlank_after h
  refine ⟨⟨?_, ?_⟩, Nat.le_add_right _ _⟩
  · rw [State.setCnt_results, hres, blankCount_cons, ← hi.countsAll]
    rfl
  · by_cases hb : r.blankFlag = true
    · simpa [hb] using hfits hb
    · simpa [hb] using hi.cntOk

theorem detectorTurn_keeps_inv {c c' : Channel} (h : detectorTurn c = .ok c') (hi : c.state.Inv) : c'.state.Inv := by
  obtain ⟨k, s, -, hp, hc⟩ := detectorTurn_eq_ok h
  rw [(countBlank_eq_next hc).1]
  exact setCnt_inv (present_keeps_inv hi hp) _

theorem detectorTurn_keeps_countInv {c c' : Channel} (h : detectorTurn c = .ok c') (hi : c.state.CountInv) :
    c'.state.CountInv ∧ c.state.cnt ≤ c'.state.cnt := by
  obtain ⟨k, s, -, hp, hc⟩ := detectorTurn_eq_ok h
  obtain rfl := present_eq_after hp
  exact countBlank_keeps_countInv (s := c.state.withToken k) ⟨hi.countsAll, hi.cntOk⟩ hc

/-- Settles O56: the operation keeps the machine's invariant, and the count keeps its own. -/
theorem detectorTurnKeepsItsInvariant : Obligations.DetectorTurnKeepsItsInvariant :=
  fun _ _ hi hcount h => ⟨detectorTurn_keeps_inv h hi, detectorTurn_keeps_countInv h hcount⟩

theorem detectorTurn_cfg {c c' : Channel} (h : detectorTurn c = .ok c') : c'.state.cfg = c.state.cfg := by
  obtain ⟨k, s, -, hp, hc⟩ := detectorTurn_eq_ok h
  obtain rfl := present_eq_after hp
  rw [(countBlank_eq_next hc).1]
  rfl

theorem detectorTurn_onlyReads {c c' : Channel} (h : detectorTurn c = .ok c') : c.transport.OnlyReads c'.transport := by
  obtain ⟨k, s, hr, -, -⟩ := detectorTurn_eq_ok h
  exact (readRecord_eq_some bestEffort_strategy hr).1

/-! ### A whole run -/

/-- The state a run starts from: fresh, after one Reset token (R193). -/
def State.started (cfg : Config) : State := ⟨[], 0, 1, [.reset], [⟨none, .nothing⟩], cfg⟩

/-- The channel a run starts with on an open Transport: that state, and the start command written. -/
def Channel.started (cfg : Config) (t : Transport) : Channel :=
  ⟨State.started cfg, { t with written := t.written ++ [outboundBytes Config.startCommand] }⟩

theorem startRun_open {t : Transport} (ho : t.isOpen = true) (cfg : Config) :
    startRun cfg t = .ok (Channel.started cfg t) := by
  rw [startRun, Transport.writeCommand_open ho]
  rfl

theorem startRun_closed {t : Transport} (ho : t.isOpen = false) (cfg : Config) :
    startRun cfg t = .error .transportUnavailable := by
  rw [startRun, Transport.writeCommand_closed ho]

theorem started_countInv (cfg : Config) : (State.started cfg).CountInv where
  countsAll := rfl
  cntOk := by
    change cntFits cfg 0 = true
    rw [cntFits]
    cases cfg.cntWidth <;> simp

/-- What a run answers once its loop ended so. -/
def LoopOutcome.toRun : LoopOutcome → RunOutcome
  | .ended c => .count c.state.cnt c.transport
  | .running c => .running c
  | .stopped why c => .stopped why c.transport

theorem runDetector_open {t : Transport} (ho : t.isOpen = true) (cfg : Config) (duration : Nat) (clock : List Nat) :
    runDetector cfg duration clock t = (detectorLoop duration clock (Channel.started cfg t)).toRun := by
  rw [runDetector, startRun_open ho]
  simp only
  cases detectorLoop duration clock (Channel.started cfg t) <;> rfl

theorem runDetector_closed {t : Transport} (ho : t.isOpen = false) (cfg : Config) (duration : Nat) (clock : List Nat) :
    runDetector cfg duration clock t = .stopped .transportUnavailable t := by
  rw [runDetector, startRun_closed ho]

theorem toRun_eq_count {o : LoopOutcome} {n : Nat} {t : Transport} (h : o.toRun = .count n t) :
    ∃ c, o = .ended c ∧ n = c.state.cnt ∧ t = c.transport := by
  cases o with
  | ended c => cases h; exact ⟨c, rfl, rfl, rfl⟩
  | running c => cases h
  | stopped why c => cases h

theorem detectorLoop_over {duration elapsed : Nat} {clock : List Nat} {c : Channel} (ho : c.transport.isOpen = true)
    (h : duration ≤ elapsed) :
    detectorLoop duration (elapsed :: clock) c =
      .ended ⟨c.state, { c.transport with written := c.transport.written ++ [outboundBytes Config.stopCommand] }⟩ := by
  rw [detectorLoop, if_pos h, Transport.writeCommand_open ho]

theorem detectorLoop_over_closed {duration elapsed : Nat} {clock : List Nat} {c : Channel}
    (ho : c.transport.isOpen = false) (h : duration ≤ elapsed) :
    detectorLoop duration (elapsed :: clock) c = .stopped .transportUnavailable c := by
  rw [detectorLoop, if_pos h, Transport.writeCommand_closed ho]

theorem detectorLoop_turn {duration elapsed : Nat} {clock : List Nat} {c c' : Channel} (h : elapsed < duration)
    (ht : detectorTurn c = .ok c') : detectorLoop duration (elapsed :: clock) c = detectorLoop duration clock c' := by
  rw [detectorLoop, if_neg (not_le.2 h), ht]

theorem detectorLoop_turn_stopped {duration elapsed : Nat} {clock : List Nat} {c : Channel} {why : Stop}
    (h : elapsed < duration) (ht : detectorTurn c = .error why) :
    detectorLoop duration (elapsed :: clock) c = .stopped why c := by
  rw [detectorLoop, if_neg (not_le.2 h), ht]

/-- Everything the loop does at a clock sample. -/
theorem detectorLoop_cases (duration elapsed : Nat) (clock : List Nat) (c : Channel) :
    (detectorLoop duration (elapsed :: clock) c =
      .ended ⟨c.state, { c.transport with written := c.transport.written ++ [outboundBytes Config.stopCommand] }⟩) ∨
    (∃ why, detectorLoop duration (elapsed :: clock) c = .stopped why c) ∨
    (∃ d, detectorTurn c = .ok d ∧ detectorLoop duration (elapsed :: clock) c = detectorLoop duration clock d) := by
  by_cases h : duration ≤ elapsed
  case pos =>
    cases ho : c.transport.isOpen with
    | true => exact .inl (detectorLoop_over ho h)
    | false => exact .inr (.inl ⟨_, detectorLoop_over_closed ho h⟩)
  case neg =>
    cases ht : detectorTurn c with
    | error why => exact .inr (.inl ⟨why, detectorLoop_turn_stopped (not_le.1 h) ht⟩)
    | ok d => exact .inr (.inr ⟨d, rfl, detectorLoop_turn (not_le.1 h) ht⟩)

/-- What every turn keeps of the state holds at the end of a run. -/
theorem detectorLoop_ended_keeps {P : State → Prop}
    (hturn : ∀ c c', detectorTurn c = .ok c' → P c.state → P c'.state)
    {duration : Nat} {clock : List Nat} {c c' : Channel} (h : detectorLoop duration clock c = .ended c')
    (hc : P c.state) : P c'.state := by
  induction clock generalizing c with
  | nil => cases h
  | cons elapsed clock ih =>
    rcases detectorLoop_cases duration elapsed clock c with hx | ⟨why, hx⟩ | ⟨d, hd, hx⟩ <;> rw [hx] at h
    · cases h
      exact hc
    · cases h
    · exact ih h (hturn c d hd hc)

/-- Settles O54: the loop ends at its first sample, before any read. -/
theorem detectorOfZeroDurationReturnsZero : Obligations.DetectorOfZeroDurationReturnsZero := by
  intro cfg elapsed clock t ho
  refine ⟨⟨_, startRun_open ho cfg, rfl, rfl, rfl⟩, ?_⟩
  rw [runDetector_open ho, detectorLoop_over (c := Channel.started cfg t) ho (Nat.zero_le elapsed)]
  simp [LoopOutcome.toRun, Channel.started, State.started]

theorem blankMessages_length (rs : List OpResult) :
    ((rs.filterMap fun r => r.reply.message?).filter Message.blank).length = blankCount rs := by
  induction rs with
  | nil => rfl
  | cons r rs ih =>
    rw [blankCount_cons, ← ih, OpResult.blankFlag, List.filterMap_cons]
    cases r.reply.message? with
    | none => simp
    | some m => cases hm : m.blank <;> simp [hm]

/-- Settles O57: every turn keeps CNT the number of blank messages, from 0 at the start. -/
theorem detectorReturnsTheNumberOfBlankMessages : Obligations.DetectorReturnsTheNumberOfBlankMessages := by
  intro cfg duration clock t t' n h
  cases ho : t.isOpen with
  | false =>
    rw [runDetector_closed ho] at h
    cases h
  | true =>
    rw [runDetector_open ho] at h
    obtain ⟨c', hloop, hn, ht⟩ := toRun_eq_count h
    have hcount := detectorLoop_ended_keeps (P := State.CountInv) (fun _ _ hd hi => (detectorTurn_keeps_countInv hd hi).1)
      hloop (started_countInv cfg)
    have hcfg := detectorLoop_ended_keeps (P := fun s => s.cfg = cfg) (fun _ _ hd hi => (detectorTurn_cfg hd).trans hi)
      hloop rfl
    refine ⟨_, c', startRun_open ho cfg, hloop, ht, hcfg, ?_⟩
    rw [hn, hcount.countsAll, ← blankMessages_length, State.messages, List.filterMap_reverse, List.filter_reverse,
      List.length_reverse]

theorem countBlank_next_of_unbounded {s : State} (h : s.cfg.cntWidth = none) : ∃ u, countBlank s = .next u := by
  have hfits : cntFits s.cfg (s.cnt + 1) = true := by rw [cntFits, h]
  rw [countBlank, if_pos hfits]
  split <;> exact ⟨_, rfl⟩

/-- With unbounded capacities a turn on an open Transport is made, whatever arrives. -/
theorem detectorTurn_ok_of_unbounded {c : Channel} (ho : c.transport.isOpen = true)
    (hu : unboundedCfg c.state.cfg = true) : ∃ c', detectorTurn c = .ok c' := by
  obtain ⟨hbuf, hcnt⟩ : c.state.cfg.bufMax = none ∧ c.state.cfg.cntWidth = none := by simpa [unboundedCfg] using hu
  obtain ⟨k, t, hr, -, hk⟩ := readRecord_answers bestEffort_strategy ho
  have hport : ∀ f, k = .frame f → f.wf = true := by
    rintro f rfl
    rcases hk with h | ⟨raw, h, -⟩ <;> cases h
  have hp : present k c.state = .next ((c.state.withToken k).after k) :=
    (present_eq k c.state).trans (runToken_next_of_unbounded hbuf hport)
  obtain ⟨u, hc⟩ := countBlank_next_of_unbounded (s := (c.state.withToken k).after k) hcnt
  have ht : turn bestEffortRead c = .ok ⟨(c.state.withToken k).after k, t⟩ := turn_of_present hr hp
  refine ⟨⟨u, t⟩, ?_⟩
  rw [detectorTurn, ht]
  simp only [hc, onChannel]

theorem detectorLoop_ends {duration : Nat} {clock : List Nat} {c : Channel} (ho : c.transport.isOpen = true)
    (hu : unboundedCfg c.state.cfg = true) (h : ∃ e ∈ clock, duration ≤ e) :
    ∃ c', detectorLoop duration clock c = .ended c' := by
  induction clock generalizing c with
  | nil => simp at h
  | cons e clock ih =>
    by_cases he : duration ≤ e
    case pos => exact ⟨_, detectorLoop_over ho he⟩
    case neg =>
      obtain ⟨d, hd⟩ := detectorTurn_ok_of_unbounded ho hu
      rw [detectorLoop_turn (not_le.1 he) hd]
      exact ih ((detectorTurn_onlyReads hd).isOpen.trans ho) (by rw [detectorTurn_cfg hd, hu]) (by simpa [he] using h)

/-- Settles O58: every turn is made until the sample that reaches the deadline, and then the stop command is written. -/
theorem detectorEndsAtItsDeadline : Obligations.DetectorEndsAtItsDeadline := by
  intro cfg duration clock t ho hu h
  rw [runDetector_open ho]
  obtain ⟨c', hloop⟩ := detectorLoop_ends (c := Channel.started cfg t) ho hu h
  rw [hloop]
  exact ⟨_, _, rfl⟩

/-! ## What each channel writes, and what it does on a closed Transport -/

theorem setWidth_setWidth_of_ascii {x : Byte} (h : x.toNat ≤ 0x7F) : (x.setWidth 7).setWidth 8 = x := by
  apply BitVec.eq_of_toNat_eq
  rw [BitVec.toNat_setWidth, BitVec.toNat_setWidth]
  omega

/-- The outbound messages are the ASCII texts with CR and LF after them (R82). -/
theorem exists_outboundBytes_eq_iff {b : Bytes} :
    (∃ cmd : Command, outboundBytes cmd = b) ↔ ∃ text : Bytes, b = text ++ [0x0D, 0x0A] ∧ ∀ x ∈ text, x.toNat ≤ 0x7F := by
  constructor
  · rintro ⟨cmd, rfl⟩
    exact ⟨_, outboundBytes_eq cmd, fun x hx => outboundBytes_ascii cmd x (List.mem_append_left _ hx)⟩
  · rintro ⟨text, rfl, hascii⟩
    refine ⟨⟨text.map (·.setWidth 7)⟩, ?_⟩
    have hback : (text.map (·.setWidth 7)).map (·.setWidth 8) = text := by
      rw [List.map_map]
      exact (List.map_congr_left fun x hx => setWidth_setWidth_of_ascii (hascii x hx)).trans (List.map_id' text)
    rw [outboundBytes_eq, hback]

/-- The Transport a call of `send_text` leaves. -/
def TextOutcome.transport : TextOutcome → Transport
  | .text _ t => t
  | .polling _ t => t

theorem textLoop_written (wait : Nat) (clock : List Nat) (out : Bytes) (t : Transport) :
    (textLoop wait clock out t).transport.written = t.written := by
  induction clock generalizing out t with
  | nil => rfl
  | cons e clock ih =>
    by_cases he : wait ≤ e
    case pos => rw [textLoop_over he]; rfl
    case neg =>
      cases ho : t.isOpen with
      | true =>
        by_cases hl : t.line = []
        · rw [textLoop_noLine ho (not_le.1 he) hl, ih]; rfl
        · rw [textLoop_line ho (not_le.1 he) hl, ih]; rfl
      | false => rw [textLoop_closed ho (not_le.1 he)]; rfl

/-- What the detector's loop wrote at its end. -/
def LoopOutcome.closing : LoopOutcome → List Bytes
  | .ended _ => [outboundBytes Config.stopCommand]
  | .running _ => []
  | .stopped _ _ => []

/-- The channel the detector's loop leaves. -/
def LoopOutcome.channel : LoopOutcome → Channel
  | .ended c => c
  | .running c => c
  | .stopped _ c => c

theorem detectorLoop_written (duration : Nat) (clock : List Nat) (c : Channel) :
    (detectorLoop duration clock c).channel.transport.written =
      c.transport.written ++ (detectorLoop duration clock c).closing := by
  induction clock generalizing c with
  | nil => exact (List.append_nil _).symm
  | cons e clock ih =>
    rcases detectorLoop_cases duration e clock c with hx | ⟨why, hx⟩ | ⟨d, hd, hx⟩ <;> rw [hx]
    · rfl
    · exact (List.append_nil _).symm
    · rw [ih d, (detectorTurn_onlyReads hd).written]

/-- The channel the streaming loop leaves. -/
def StreamOutcome.channel : StreamOutcome → Channel
  | .running c => c
  | .stopped _ c => c

theorem streamTurns_written (n : Nat) (c : Channel) :
    (streamTurns n c).channel.transport.written = c.transport.written := by
  induction n generalizing c with
  | zero => rfl
  | succ n ih =>
    rw [streamTurns]
    cases ht : turn bestEffortRead c with
    | error why => rfl
    | ok c' => exact (ih c').trans (turn_onlyReads bestEffort_strategy ht).written

/-- Settles O60: each loop only reads, so what was written is the commands around it. -/
theorem outboundMessagesAreAsciiLines : Obligations.OutboundMessagesAreAsciiLines := by
  refine ⟨fun b => exists_outboundBytes_eq_iff, fun t ho => ⟨fun turns cmd s => ?_, fun wait clock cmd => ?_,
    fun cfg duration clock => ?_, Transport.writeCommand_open ho _, fun n s => ?_⟩⟩
  · have hw := send_written (c := ⟨s, t⟩) ho turns cmd
    generalize send turns cmd ⟨s, t⟩ = o at hw ⊢
    cases o <;> exact hw
  · have hw := textLoop_written wait clock [] { t with written := t.written ++ [outboundBytes cmd] }
    rw [sendText_open ho]
    generalize textLoop wait clock [] _ = o at hw ⊢
    cases o <;> exact hw
  · have hw := detectorLoop_written duration clock (Channel.started cfg t)
    have hstart : (Channel.started cfg t).transport.written = t.written ++ [outboundBytes Config.startCommand] := rfl
    rw [hstart, List.append_assoc] at hw
    rw [runDetector_open ho]
    generalize detectorLoop duration clock (Channel.started cfg t) = o at hw ⊢
    cases o <;> exact hw
  · have hw := streamTurns_written n ⟨s, t⟩
    generalize streamTurns n ⟨s, t⟩ = o at hw ⊢
    cases o <;> exact hw

theorem sendText_closed {t : Transport} (ho : t.isOpen = false) (wait : Nat) (clock : List Nat) (cmd : Command) :
    sendText wait clock cmd t = .text Config.textSentinel t := by
  rw [sendText, Transport.writeCommand_closed ho]

theorem streamTurns_closed {c : Channel} (ho : c.transport.isOpen = false) (n : Nat) :
    streamTurns (n + 1) c = .stopped .transportUnavailable c := by
  have hr : bestEffortRead c.transport = none := readRecord_closed ho _
  rw [streamTurns, turn_closed hr]

/-- Settles O48: the first access of each channel answers none. -/
theorem closedTransportIsSurfaced : Obligations.ClosedTransportIsSurfaced := by
  refine fun t => ⟨rfl, fun ho => ⟨Transport.read_closed ho, Transport.write_closed ho, ?_, readRecord_closed ho _,
    readRecord_closed ho _, Transport.writeCommand_closed ho _, fun turns cmd s => send_closed ho turns cmd,
    fun n s => streamTurns_closed ho n, runDetector_closed ho, sendText_closed ho⟩⟩
  simp [Transport.available, ho]

end Sys2Proof.Machine
end
